-- ==== Sys2Proof/Word.lean ====
section
/-! DEFINITION. The word type and the vocabulary of names that the commands of the FB40 use (spec/00_scope.md,
spec/11_formats_parameters_and_signals.md): legs, lanes, clients, record indexes, and the stored form of a record's
covered fields. -/

namespace Sys2Proof

/-- A word is 16 bits, numbered 15 down to 0 (00_scope.md, "Numbers and words"; R185). -/
abbrev Word := BitVec 16

/-- The four legs, numbered 0 to 3 (00_scope.md, "Legs"). -/
inductive Leg where
  /-- left fore, leg 0 -/
  | lf
  /-- right fore, leg 1 -/
  | rf
  /-- left hind, leg 2 -/
  | lh
  /-- right hind, leg 3 -/
  | rh
  deriving DecidableEq, Repr

namespace Leg

/-- The legs in the order of their numbers. -/
def all : List Leg := [.lf, .rf, .lh, .rh]

/-- A leg's number (00_scope.md, "Legs"). -/
def number : Leg → Nat
  | .lf => 0
  | .rf => 1
  | .lh => 2
  | .rh => 3

end Leg

/-- One value for each leg. -/
structure PerLeg (α : Type) where
  lf : α
  rf : α
  lh : α
  rh : α
  deriving DecidableEq, Repr

namespace PerLeg

variable {α : Type}

/-- The same value for every leg. -/
def const (a : α) : PerLeg α := ⟨a, a, a, a⟩

/-- The value of one leg. -/
def get (p : PerLeg α) : Leg → α
  | .lf => p.lf
  | .rf => p.rf
  | .lh => p.lh
  | .rh => p.rh

/-- Replaces the value of one leg. -/
def set (p : PerLeg α) (l : Leg) (a : α) : PerLeg α :=
  match l with
  | .lf => { p with lf := a }
  | .rf => { p with rf := a }
  | .lh => { p with lh := a }
  | .rh => { p with rh := a }

end PerLeg

/-- The two lanes of the command bus (R172); LANE numbers them A 0, B 1 (R182). -/
inductive Lane where
  | a
  | b
  deriving DecidableEq, Repr

/-- The three client roles (R174). -/
inductive Client where
  | perception
  | planner
  | supervisor
  deriving DecidableEq, Repr

/-- The index of a foothold record, 0 to 39 (R1). -/
abbrev RecordIndex := Fin 40

/-- The fields that the check code covers, with the stored code, each in the width of its stored form (R17, R18). -/
structure StoredContent where
  x : Word
  y : Word
  z : Word
  surfaceClass : BitVec 3
  slope : BitVec 4
  confidence : BitVec 4
  friction : BitVec 9
  slips : BitVec 3
  check : Word
  deriving DecidableEq, Repr

/-- The lane a command frame arrives on, and the station and client fields of its header as they stand in the word
(R174, R185). The command code and the data count are the row's. -/
structure FrameHead where
  lane : Lane
  station : BitVec 4
  client : BitVec 2
  deriving DecidableEq, Repr

end Sys2Proof
end

