-- ==== Sys2Proof/Machine/Tables.lean ====
section
/-! DEFINITION. The fixed tables of the spec: the command code table's counts (11.2), the parameter table (11.6), the
friction table's defaults and the slope tangents (R22). -/

namespace Sys2Proof.Machine

/-- The data count of each of the thirty-three command codes (11.2); none for a code not in the table. -/
def commandCount (code : BitVec 6) : Option Nat :=
  match code.toNat with
  | 1 => some 4    -- SUBMIT
  | 2 => some 6    -- AMEND
  | 3 => some 1    -- QUERY
  | 4 => some 4    -- FIND
  | 5 => some 1    -- RETIRE
  | 6 => some 6    -- RESTORE
  | 7 => some 3    -- REBASE
  | 8 => some 2    -- RESERVE
  | 9 => some 1    -- CANCEL
  | 10 => some 1   -- QUEUE
  | 12 => some 2   -- ADOPT
  | 13 => some 1   -- REDIRECT
  | 14 => some 1   -- LEGSTATE
  | 15 => some 1   -- RELINK
  | 16 => some 1   -- GAIT
  | 17 => some 0   -- RESUME
  | 18 => some 4   -- POSE
  | 19 => some 0   -- MARGIN
  | 20 => some 6   -- TERM
  | 21 => some 6   -- TRIP
  | 22 => some 0   -- TRIPSTATE
  | 24 => some 3   -- ATTENTION
  | 25 => some 0   -- VECTOR
  | 26 => some 0   -- CONDITION
  | 27 => some 0   -- CLEARCOND
  | 28 => some 0   -- STATUS
  | 29 => some 0   -- LASTCMD
  | 30 => some 2   -- LANE
  | 31 => some 0   -- RESET
  | 32 => some 2   -- SETPARAM
  | 33 => some 1   -- GETPARAM
  | 34 => some 3   -- FRICTION
  | 35 => some 1   -- GETFRICTION
  | _ => none

/-- The parameters by number (11.6). -/
abbrev ParamNumber := Fin 18

/-- A parameter's least value, greatest value and default (11.6). -/
def paramRow (n : ParamNumber) : Int × Int × Int :=
  match n.val with
  | 0 => (0, 500, 40)        -- lift margin, mm
  | 1 => (-200, 200, 0)      -- tip margin, mm
  | 2 => (10, 1000, 60)      -- touchdown load, N
  | 3 => (5, 995, 30)        -- liftoff load, N
  | 4 => (10, 200, 60)       -- settle window, ms
  | 5 => (100, 2000, 400)    -- descent timeout, ms
  | 6 => (300, 5000, 1500)   -- swing timeout, ms
  | 7 => (20, 1000, 100)     -- pose timeout, ms
  | 8 => (4, 64, 20)         -- liveness window, ms
  | 9 => (1, 32, 4)          -- liveness min frames
  | 10 => (2, 50, 10)        -- echo timeout, ms
  | 11 => (0, 3, 2)          -- order retries
  | 12 => (1, 15, 6)         -- expiry strides
  | 13 => (0, 15, 4)         -- min confidence
  | 14 => (0, 400, 80)       -- min foot spacing, mm
  | 15 => (1, 7, 3)          -- slip limit
  | 16 => (0, 3, 1)          -- bounce limit
  | _ => (0, 4, 2)           -- vacate confidence bonus

/-- Every parameter at its default (11.6, R186). -/
def defaultParams : Vector Word 18 :=
  #v[40, 0, 60, 30, 60, 400, 1500, 100, 20, 4, 10, 2, 6, 4, 80, 3, 1, 2]

/-- One entry of the friction table: a coefficient in Q8 and a derate step (R22). -/
structure FrictionEntry where
  coefficient : BitVec 9
  derate : BitVec 7
  deriving DecidableEq, Repr

/-- The friction table's defaults (R22). -/
def defaultFriction : Vector FrictionEntry 8 :=
  #v[⟨154, 16⟩, ⟨141, 16⟩, ⟨90, 16⟩, ⟨166, 16⟩, ⟨115, 16⟩, ⟨64, 16⟩, ⟨77, 16⟩, ⟨51, 16⟩]

/-- The tangent of a slope grade in Q8 (R22); none for the grades 13 to 15, which fail the slope test (R21). -/
def slopeTangent (grade : BitVec 4) : Option Nat :=
  match grade.toNat with
  | 0 => some 0
  | 1 => some 22
  | 2 => some 45
  | 3 => some 69
  | 4 => some 93
  | 5 => some 119
  | 6 => some 148
  | 7 => some 179
  | 8 => some 215
  | 9 => some 256
  | 10 => some 305
  | 11 => some 366
  | 12 => some 443
  | _ => none

end Sys2Proof.Machine
end

