-- ==== Sys2Proof/Machine/Formats.lean ====
section
/-! DEFINITION. The check function (00_scope.md, "The check function"), the command header's layout (11.2) and the form
of a command frame (R175). -/

namespace Sys2Proof.Machine

/-- The check function's step for one data bit (00_scope.md, "The check function", step 4). -/
def checkBit (r : Word) (bit : Bool) : Word :=
  if r.msb != bit then (r <<< 1) ^^^ 0x2F15#16 else r <<< 1

/-- The check function's steps for one word, bit 15 down to bit 0 (step 3). -/
def checkWord (r w : Word) : Word :=
  [15, 14, 13, 12, 11, 10, 9, 8, 7, 6, 5, 4, 3, 2, 1, 0].foldl (fun r i => checkBit r (w.getLsbD i)) r

/-- The check code of a list of words (steps 1, 2 and 5). -/
def checkCode (words : List Word) : Word :=
  words.foldl checkWord 0xFFFF#16

/-- A command header word: station 15–12, client 11–10, command code 9–4, data count 3–0 (11.2). -/
def headerWord (h : FrameHead) (code : BitVec 6) (count : BitVec 4) : Word :=
  h.station ++ h.client ++ code ++ count

/-- The head of a frame that arrived on a lane with this header word (11.2). -/
def headOf (lane : Lane) (header : Word) : FrameHead :=
  ⟨lane, header.extractLsb' 12 4, header.extractLsb' 10 2⟩

/-- The command code of a header word (11.2). -/
def codeOf (header : Word) : BitVec 6 := header.extractLsb' 4 6

/-- The data count of a header word (11.2). -/
def countOf (header : Word) : BitVec 4 := header.extractLsb' 0 4

/-- The broadcast address (R173). -/
def broadcastStation : BitVec 4 := 15

/-- The header's station field is the broadcast address (R173). -/
def isBroadcast (h : FrameHead) : Bool := h.station == broadcastStation

/-- The client role a header's client field names; none for the invalid field 0 (R174, 11.2). -/
def clientOf (field : BitVec 2) : Option Client :=
  match field.toNat with
  | 1 => some .perception
  | 2 => some .planner
  | 3 => some .supervisor
  | _ => none

/-- The commands that may be broadcast: POSE, and GAIT with mode word HALT (4) (R175). -/
def mayBroadcast (code : BitVec 6) (data : List Word) : Bool :=
  code == 18 || (code == 16 && data.head? == some 4)

/-- A frame that passed its check and is for this station is malformed (R175). The list of R175 does not name a frame whose
number of data words differs from its header's data count; the model takes it as malformed (DESIGN CHOICE, unsafe, log
26). -/
def malformedForm (h : FrameHead) (code : BitVec 6) (count : BitVec 4) (data : List Word) : Bool :=
  h.client == 0
    || commandCount code != some count.toNat
    || data.length != count.toNat
    || (isBroadcast h && !mayBroadcast code data)

/-- The form test of a raw frame (R175). -/
def frameMalformed (lane : Lane) (header : Word) (data : List Word) : Bool :=
  malformedForm (headOf lane header) (codeOf header) (countOf header) data

end Sys2Proof.Machine
end

