-- ==== Sys2Proof/Syntax.lean ====
section
/-! DEFINITION. The commands and events of the FB40: one constructor for each row of spec/opcode_table.json. Client
commands carry the frame's head and its data words in the order of the command code table (11.2). -/

namespace Sys2Proof

/-- One command or event. The words of a client command are raw: range checks are the command's own (R178, R185).
GAIT, TRIP and LANE have one row for each mode or operation. A GAIT frame whose mode word is outside the table is carried
by gaitReport, a TRIP frame whose operation is outside it by tripConfigure, a LANE frame whose operation is outside it by
laneShut (DESIGN CHOICE, safe, log 2). -/
inductive Instr where
  /-- SUBMIT (R25) -/
  | submit (h : FrameHead) (x y z classWord : Word)
  /-- AMEND (R27) -/
  | amend (h : FrameHead) (handle mask x y z classWord : Word)
  /-- QUERY (R30) -/
  | query (h : FrameHead) (handle : Word)
  /-- FIND (R31) -/
  | find (h : FrameHead) (x y radius minConfidence : Word)
  /-- RETIRE (R33) -/
  | retire (h : FrameHead) (handle : Word)
  /-- RESTORE (R39) -/
  | restore (h : FrameHead) (handle x y z classWord friction : Word)
  /-- REBASE (R40) -/
  | rebase (h : FrameHead) (dx dy dz : Word)
  /-- RESERVE (R49) -/
  | reserve (h : FrameHead) (leg handle : Word)
  /-- CANCEL (R54) -/
  | cancel (h : FrameHead) (handle : Word)
  /-- QUEUE (R55) -/
  | queue (h : FrameHead) (leg : Word)
  /-- ADOPT (R91) -/
  | adopt (h : FrameHead) (leg handle : Word)
  /-- REDIRECT (R110) -/
  | redirect (h : FrameHead) (leg : Word)
  /-- LEGSTATE (R111) -/
  | legstate (h : FrameHead) (leg : Word)
  /-- RELINK (R77) -/
  | relink (h : FrameHead) (leg : Word)
  /-- GAIT with mode STAND (R125) -/
  | gaitStand (h : FrameHead)
  /-- GAIT with mode WALK (R126) -/
  | gaitWalk (h : FrameHead)
  /-- GAIT with mode PAUSE (R126) -/
  | gaitPause (h : FrameHead)
  /-- GAIT with mode OFF (R128) -/
  | gaitOff (h : FrameHead)
  /-- GAIT with mode HALT (R129) -/
  | gaitHalt (h : FrameHead)
  /-- GAIT with mode FORWARD (R116) -/
  | gaitForward (h : FrameHead)
  /-- GAIT with mode BACKWARD (R116) -/
  | gaitBackward (h : FrameHead)
  /-- GAIT with mode REPORT, or with a mode outside the table (R123) -/
  | gaitReport (h : FrameHead) (mode : Word)
  /-- RESUME (R130) -/
  | resume (h : FrameHead)
  /-- POSE (R134) -/
  | pose (h : FrameHead) (x y pitch roll : Word)
  /-- MARGIN (R147) -/
  | margin (h : FrameHead)
  /-- TERM (R152) -/
  | term (h : FrameHead) (number enable source leg relation threshold : Word)
  /-- TRIP with operation CONFIGURE, or with an operation outside the table (R157) -/
  | tripConfigure (h : FrameHead) (trip operation mode action terms window : Word)
  /-- TRIP with operation ARM (R157) -/
  | tripArm (h : FrameHead) (trip mode action terms window : Word)
  /-- TRIP with operation DISARM (R157) -/
  | tripDisarm (h : FrameHead) (trip mode action terms window : Word)
  /-- TRIPSTATE (R159) -/
  | tripstate (h : FrameHead)
  /-- ATTENTION (R165) -/
  | attention (h : FrameHead) (node priority flags : Word)
  /-- VECTOR (R166) -/
  | vector (h : FrameHead)
  /-- CONDITION (R169) -/
  | condition (h : FrameHead)
  /-- CLEARCOND (R170) -/
  | clearcond (h : FrameHead)
  /-- STATUS (R181) -/
  | status (h : FrameHead)
  /-- LASTCMD (R181) -/
  | lastcmd (h : FrameHead)
  /-- LANE with operation SHUT, or with an operation outside the table (R182) -/
  | laneShut (h : FrameHead) (lane operation : Word)
  /-- LANE with operation OPEN (R182) -/
  | laneOpen (h : FrameHead) (lane : Word)
  /-- RESET (R183) -/
  | reset (h : FrameHead)
  /-- SETPARAM (R186) -/
  | setparam (h : FrameHead) (parameter value : Word)
  /-- GETPARAM (R186) -/
  | getparam (h : FrameHead) (parameter : Word)
  /-- FRICTION (R187) -/
  | friction (h : FrameHead) (surfaceClass coefficient derate : Word)
  /-- GETFRICTION (R187) -/
  | getfriction (h : FrameHead) (surfaceClass : Word)
  /-- COMMAND_FRAME_CHECK_FAILURE (R174): a whole frame and its check word -/
  | commandFrameCheckFailure (lane : Lane) (header : Word) (data : List Word) (check : Word)
  /-- FRAME_FOR_OTHER_STATION (R174): a whole frame and its check word -/
  | frameForOtherStation (lane : Lane) (header : Word) (data : List Word) (check : Word)
  /-- MALFORMED_FRAME (R175): a whole frame and its check word -/
  | malformedFrame (lane : Lane) (header : Word) (data : List Word) (check : Word)
  /-- RESPONSE_END (R179) -/
  | responseEnd
  /-- POWER_ON_RESET (R183), with the strap levels at the end of the reset -/
  | powerOnReset (straps : BitVec 4)
  /-- CONTACT_REPORT (R66): the four words of the report -/
  | contactReport (leg : Leg) (flags normal tangential check : Word)
  /-- ECHO_TIMER_EXPIRY (R70) -/
  | echoTimerExpiry (leg : Leg)
  /-- LIVENESS_WINDOW_END (R73) -/
  | livenessWindowEnd (leg : Leg)
  /-- SLIP_REARM_TIMER_EXPIRY (R84) -/
  | slipRearmTimerExpiry (leg : Leg)
  /-- DESCENT_TIMER_EXPIRY (R97) -/
  | descentTimerExpiry (leg : Leg)
  /-- SETTLE_TIMER_EXPIRY (R98) -/
  | settleTimerExpiry (leg : Leg)
  /-- SWING_TIMER_EXPIRY (R107) -/
  | swingTimerExpiry (leg : Leg)
  /-- POSE_TIMER_EXPIRY (R135) -/
  | poseTimerExpiry
  /-- TRIP_WINDOW_EXPIRY (R155) -/
  | tripWindowExpiry (trip : Fin 4)
  /-- SWEEP_VISIT (R36) -/
  | sweepVisit
  /-- REBASE_WALK_VISIT (R43) -/
  | rebaseWalkVisit
  /-- REBASE_WALK_COMPLETION (R45) -/
  | rebaseWalkCompletion
  /-- LIFT (R92): the pending lift reaches its leg's phase machine -/
  | lift
  /-- STORED_CONTENT_DISTURBANCE (R18): what the slot's covered fields and check code then hold -/
  | storedContentDisturbance (index : RecordIndex) (content : StoredContent)
  deriving DecidableEq, Repr

end Sys2Proof
end

