-- ==== Sys2Proof/WellFormed.lean ====
section
/-! DEFINITION. When a term of Instr is the command its row names, so far as the term alone shows it. A term that is not
well-formed is still given a meaning by exec: the lane interface deals with its frame as R174 says. -/

namespace Sys2Proof

open Machine in
/-- A command frame that is not malformed: its code, count and data are the row's, so what is left is the client field
and the broadcast rule (R175). -/
def FrameHead.valid (h : FrameHead) (code : BitVec 6) (data : List Word) : Bool :=
  !malformedForm h code (BitVec.ofNat 4 data.length) data

open Machine in
/-- The term is the command its row names. -/
def Instr.wellFormed : Instr → Bool
  | .submit h x y z c => h.valid 1 [x, y, z, c]
  | .amend h hd m x y z c => h.valid 2 [hd, m, x, y, z, c]
  | .query h hd => h.valid 3 [hd]
  | .find h x y r m => h.valid 4 [x, y, r, m]
  | .retire h hd => h.valid 5 [hd]
  | .restore h hd x y z c f => h.valid 6 [hd, x, y, z, c, f]
  | .rebase h dx dy dz => h.valid 7 [dx, dy, dz]
  | .reserve h l hd => h.valid 8 [l, hd]
  | .cancel h hd => h.valid 9 [hd]
  | .queue h l => h.valid 10 [l]
  | .adopt h l hd => h.valid 12 [l, hd]
  | .redirect h l => h.valid 13 [l]
  | .legstate h l => h.valid 14 [l]
  | .relink h l => h.valid 15 [l]
  | .gaitStand h => h.valid 16 [0]
  | .gaitWalk h => h.valid 16 [1]
  | .gaitPause h => h.valid 16 [2]
  | .gaitOff h => h.valid 16 [3]
  | .gaitHalt h => h.valid 16 [4]
  | .gaitForward h => h.valid 16 [5]
  | .gaitBackward h => h.valid 16 [6]
  | .gaitReport h m => h.valid 16 [m] && 7 ≤ m.toNat
  | .resume h => h.valid 17 []
  | .pose h x y p r => h.valid 18 [x, y, p, r]
  | .margin h => h.valid 19 []
  | .term h n e s l r t => h.valid 20 [n, e, s, l, r, t]
  | .tripConfigure h n o m a t w => h.valid 21 [n, o, m, a, t, w] && (o == 0 || 2 < o.toNat)
  | .tripArm h n m a t w => h.valid 21 [n, 1, m, a, t, w]
  | .tripDisarm h n m a t w => h.valid 21 [n, 2, m, a, t, w]
  | .tripstate h => h.valid 22 []
  | .attention h n p f => h.valid 24 [n, p, f]
  | .vector h => h.valid 25 []
  | .condition h => h.valid 26 []
  | .clearcond h => h.valid 27 []
  | .status h => h.valid 28 []
  | .lastcmd h => h.valid 29 []
  | .laneShut h l o => h.valid 30 [l, o] && (o == 0 || 1 < o.toNat)
  | .laneOpen h l => h.valid 30 [l, 1]
  | .reset h => h.valid 31 []
  | .setparam h p v => h.valid 32 [p, v]
  | .getparam h p => h.valid 33 [p]
  | .friction h c k d => h.valid 34 [c, k, d]
  | .getfriction h c => h.valid 35 [c]
  | .commandFrameCheckFailure _ header data check => checkCode (header :: data) != check
  | .frameForOtherStation lane header data check =>
      checkCode (header :: data) == check && !isBroadcast (headOf lane header)
  | .malformedFrame lane header data check =>
      checkCode (header :: data) == check && frameMalformed lane header data
  | .responseEnd => true
  | .powerOnReset _ => true
  | .contactReport _ _ _ _ _ => true
  | .echoTimerExpiry _ => true
  | .livenessWindowEnd _ => true
  | .slipRearmTimerExpiry _ => true
  | .descentTimerExpiry _ => true
  | .settleTimerExpiry _ => true
  | .swingTimerExpiry _ => true
  | .poseTimerExpiry => true
  | .tripWindowExpiry _ => true
  | .sweepVisit => true
  | .rebaseWalkVisit => true
  | .rebaseWalkCompletion => true
  | .lift => true
  | .storedContentDisturbance _ _ => true

end Sys2Proof
end

