-- ==== Sys2Proof/Decode.lean ====
section
/-! DEFINITION. The commands that a word spells by the bits of spec/opcode_table.json. Every row of that table has an
empty list of fields and no fixed bits, so no word spells a command. -/

namespace Sys2Proof

/-- The command that a word of nbits bits spells by the opcode table: none, since no row gives bits. -/
def decodeTableWord (_nbits _w : Nat) : Option Instr := none

end Sys2Proof
end

