-- ==== Sys2Proof/Config.lean ====
section
/-! DEFINITION. What the installation fixes and the spec leaves to it: the strap levels of the board. The spec leaves no
result of a command undefined, so there is no free value here. -/

namespace Sys2Proof.Config

/-- The levels of STN3 to STN0 on the board (11.7, R173), before any POWER_ON_RESET of the run states others.
DESIGN CHOICE: the spec gives no level; 6 is the station of its worked sequences (10.9, 12.1). Unsafe (log 5). -/
def boardStraps : BitVec 4 := 6

end Sys2Proof.Config
end

