-- ==== Sys2Proof/Machine/State.lean ====
section
/-! DEFINITION. The state of the FB40: every piece of state that the spec's blocks own (00_scope.md, block diagram), the
queue of waiting commands, the reasons a step can stop, and the machine after reset. -/

namespace Sys2Proof.Machine

/-! ### Foothold records (chapter 1) -/

/-- A record's name: its index and a generation (R15). The handle NONE is none of this type. -/
structure Handle where
  index : RecordIndex
  gen : BitVec 4
  deriving DecidableEq, Repr

/-- The five non-FREE states, with the fields present in them alone: the owner leg and the check-failed flag (R1, R5). -/
inductive RecordState where
  | candidate
  | reserved (owner : Leg)
  | target (owner : Leg)
  | loaded (owner : Leg) (checkFailed : Bool)
  | suspect
  deriving DecidableEq, Repr

/-- A non-FREE foothold record (R1). -/
structure FootRecord where
  state : RecordState
  content : StoredContent
  origin : Client
  birth : BitVec 12
  tag : BitVec 12
  deriving DecidableEq, Repr

/-- The retire reasons (R34). -/
inductive RetireReason where
  | client
  | expired
  | void
  | check
  | outOfFrame
  deriving DecidableEq, Repr

/-! ### Foothold store (chapter 2) -/

/-- A rebase walk in flight: the index it visits next, or none once index 39 has been visited; its offsets; and how many
records it has retired OUT_OF_FRAME (R41, R43, R45). -/
structure RebaseWalk where
  next : Option RecordIndex
  dx : Word
  dy : Word
  dz : Word
  retired : Nat
  deriving DecidableEq, Repr

/-- The foothold store: the slots, a FREE one being none (R1), the generations (R16), the walk, the sweep with the index
it visits next (R36), and the friction table (R22). -/
structure Store where
  slots : Vector (Option FootRecord) 40
  gens : Vector (BitVec 4) 40
  walk : Option RebaseWalk
  sweep : Option RecordIndex
  friction : Vector FrictionEntry 8
  deriving DecidableEq, Repr

/-! ### Timers -/

/-- A timer: stopped, or running with the period in force when it started, in milliseconds (00_scope.md, "Timers"). -/
inductive Timer where
  | stopped
  | running (period : Nat)
  deriving DecidableEq, Repr

/-- The timer runs. -/
def Timer.isRunning : Timer → Bool
  | .stopped => false
  | .running _ => true

/-! ### Leg ports (chapter 4) -/

/-- Why a leg was last lost by its port (R64). -/
inductive LossReason where
  | none
  | silent
  | noEcho
  | relink
  | joint
  deriving DecidableEq, Repr

/-- The order kinds (R64, 11.5). -/
inductive OrderKind where
  | hold
  | lift
  | place
  | brace
  | retract
  deriving DecidableEq, Repr

/-- An order frame without its check word, which is computed from the rest (R68). -/
structure Order where
  number : BitVec 4
  kind : OrderKind
  dx : Word
  dy : Word
  z : Word
  deriving DecidableEq, Repr

/-- The detector's arming (R78). -/
inductive Arming where
  | unarmed
  | forTouchdown
  | forLiftoff
  deriving DecidableEq, Repr

/-- The content of a good report (R64, 11.5). -/
structure Report where
  normal : BitVec 11
  tangential : BitVec 11
  arrived : Bool
  overtemp : Bool
  jointFault : BitVec 3
  deriving DecidableEq, Repr

/-- One leg port (R64). windowPeriod is the length of the liveness window now running (R73). -/
structure Port where
  linkUp : Bool
  loss : LossReason
  windowCount : Nat
  goodRun : Nat
  windowPeriod : Nat
  lastNumber : BitVec 4
  lastKind : Option OrderKind
  pending : Option Order
  retries : Nat
  echoTimer : Timer
  arming : Arming
  slipHeld : Bool
  rearmTimer : Timer
  jointFault : Bool
  report : Report
  deriving DecidableEq, Repr

/-! ### Leg phase machines (chapter 5) -/

/-- The nine phases (R88). -/
inductive Phase where
  | unseen
  | idle
  | stance
  | unloading
  | swing
  | seeking
  | descent
  | touchdown
  | lost
  deriving DecidableEq, Repr

/-- One leg phase machine (R88). -/
structure LegState where
  phase : Phase
  stance : Option Handle
  target : Option Handle
  bounce : Nat
  slipLatched : Bool
  stepFlag : Bool
  swingTimer : Timer
  descentTimer : Timer
  settleTimer : Timer
  deriving DecidableEq, Repr

/-! ### Gait sequencer (chapter 6) -/

/-- The gait states (R114). -/
inductive Gait where
  | off
  | standing
  | walking
  | holding
  | stopping
  | halted
  deriving DecidableEq, Repr

/-- The stepping patterns (R114). -/
inductive Pattern where
  | forward
  | backward
  deriving DecidableEq, Repr

/-- The hold reasons (R114). -/
inductive HoldReason where
  | margin
  | noFoothold
  | poseStale
  | slip
  | rebase
  | trip
  | pause
  deriving DecidableEq, Repr

/-- The hold reason set: which reasons are members (R114). -/
structure HoldReasons where
  margin : Bool
  noFoothold : Bool
  poseStale : Bool
  slip : Bool
  rebase : Bool
  trip : Bool
  pause : Bool
  deriving DecidableEq, Repr

/-- The halt causes, which are the halt reasons other than none (R114, R127). -/
inductive HaltCause where
  | client
  | tip
  | supportLost
  | legLost
  | slipLimit
  | swingTimeout
  | check
  | trip
  deriving DecidableEq, Repr

/-- The gait sequencer (R114). -/
structure Sequencer where
  gait : Gait
  pattern : Pattern
  pointer : Leg
  stride : BitVec 12
  reasons : HoldReasons
  haltReason : Option HaltCause
  liftPending : Option Leg
  deriving DecidableEq, Repr

/-! ### Balance monitor (chapter 7) -/

/-- The pose a client supplied (R133). -/
structure Pose where
  x : Word
  y : Word
  pitch : Word
  roll : Word
  deriving DecidableEq, Repr

/-- The pose's freshness; a pose is held when it is not none (R133). -/
inductive Freshness where
  | none
  | fresh
  | stale
  deriving DecidableEq, Repr

/-- A margin's classification (R133). -/
inductive MarginClass where
  | inside
  | onEdge
  | outside
  | degen
  | saturated
  deriving DecidableEq, Repr

/-- A margin with its classification (R133). -/
structure Margin where
  value : Word
  cls : MarginClass
  deriving DecidableEq, Repr

/-- The balance monitor (R133). -/
structure Balance where
  pose : Pose
  freshness : Freshness
  poseTimer : Timer
  current : Margin
  currentLegs : PerLeg Bool
  lift : Margin
  liftLeg : Option Leg
  sat : Bool
  degen : Bool
  deriving DecidableEq, Repr

/-! ### Trip unit (chapter 8) -/

/-- The nine sources of watch terms (R150). -/
inductive Source where
  | currentMargin
  | liftMargin
  | normalLoad
  | tangentialRatio
  | pitch
  | roll
  | overtemp
  | candidateCount
  | slipCount
  deriving DecidableEq, Repr

/-- The relations of watch terms (R149). -/
inductive Relation where
  | below
  | atOrAbove
  deriving DecidableEq, Repr

/-- One watch term (R149). -/
structure WatchTerm where
  enabled : Bool
  source : Source
  leg : Leg
  relation : Relation
  threshold : Word
  truth : Bool
  deriving DecidableEq, Repr

/-- The trip modes (R153); sequence is THEN. -/
inductive TripMode where
  | all
  | any
  | sequence
  deriving DecidableEq, Repr

/-- The trip actions (R153). -/
inductive TripAction where
  | attention
  | hold
  | halt
  deriving DecidableEq, Repr

/-- The trip states (R153). -/
inductive TripState where
  | disarmed
  | armed
  | primed
  | fired
  deriving DecidableEq, Repr

/-- One trip (R153): term n of the mask at bit n; window in milliseconds. -/
structure Trip where
  mode : TripMode
  mask : BitVec 8
  first : Fin 8
  second : Fin 8
  window : Nat
  action : TripAction
  state : TripState
  timer : Timer
  deriving DecidableEq, Repr

/-- The copies of the latest value delivered from each source (R150). -/
structure SourceCopies where
  currentMargin : Int
  liftMargin : Int
  normalLoad : PerLeg Int
  tangentialRatio : PerLeg Int
  pitch : Int
  roll : Int
  overtemp : PerLeg Int
  candidateCount : Int
  slipCount : PerLeg Int
  deriving DecidableEq, Repr

/-- The trip unit (R149, R150, R153). -/
structure TripUnit where
  terms : Vector WatchTerm 8
  trips : Vector Trip 4
  copies : SourceCopies
  deriving DecidableEq, Repr

/-! ### Attention unit (chapter 9) -/

/-- The kinds of a LEG node's detail (R161). -/
inductive LegEventKind where
  | lost
  | returned
  | unexpectedUnload
  | lateContact
  deriving DecidableEq, Repr

/-- The details an attention node may hold (R161, "Node and detail words" of 11.4). -/
inductive Detail where
  /-- pended by the host with ATTENTION -/
  | client
  | tip (margin : Margin)
  | slip (leg : Leg) (inTouchdown : Bool) (record : Handle)
  | miss (leg : Leg) (byBounce : Bool) (record : Handle)
  | leg (leg : Leg) (kind : LegEventKind) (loss : LossReason)
  | gaitHolding (reasons : HoldReasons)
  | gaitHalted (cause : HaltCause)
  | gaitStanding
  | record (record : Handle) (reason : RetireReason)
  | trip (number : Fin 4)
  | done (retired : Nat)
  deriving DecidableEq, Repr

/-- The attention nodes by number: 0 TIP, 1 SLIP, 2 MISS, 3 LEG, 4 GAIT, 5 RECORD, 6 TRIP, 7 DONE (R161). -/
abbrev NodeNumber := Fin 8

/-- One attention node; it is pending when it has a detail (R161). -/
structure Node where
  priority : BitVec 4
  enabled : Bool
  pending : Option Detail
  more : Bool
  deriving DecidableEq, Repr

/-- The attention unit: the nodes, the ATTN line, the tip condition as last told (R163), and the two sticky flags of the
condition word that it holds (R169). -/
structure Attention where
  nodes : Vector Node 8
  line : Bool
  tipHolds : Bool
  checkFlag : Bool
  frameFlag : Bool
  deriving DecidableEq, Repr

/-! ### Lane interface (chapter 10) -/

/-- A response going out: its lane, its words, and whether the reset of R183 is taken at its end or cut. -/
structure Response where
  lane : Lane
  words : List Word
  thenReset : Bool
  deriving DecidableEq, Repr

/-- The lane interface (R172), with the levels of the strap pins (11.7). -/
structure Lanes where
  straps : BitVec 4
  station : BitVec 4
  shutA : Bool
  shutB : Bool
  me : Bool
  broadcast : Bool
  lastHeader : Word
  inFlight : Option Response
  deriving DecidableEq, Repr

/-! ### The whole machine -/

/-- The state of the FB40. -/
structure State where
  /-- the commands that wait, first in first out; the model's own field (log 1) -/
  pending : List Instr
  lanes : Lanes
  store : Store
  queues : PerLeg (List Handle)
  ports : PerLeg Port
  legs : PerLeg LegState
  /-- the legs to which the report of a new front, left by a target take answered CHECK, has still to come in an event of
  its own (R57, R105; DESIGN CHOICE, unsafe, log 9) -/
  newFronts : PerLeg Bool
  seq : Sequencer
  bal : Balance
  trips : TripUnit
  attn : Attention
  params : Vector Word 18
  /-- the order frames that the last event put on the leg links, oldest first; the model's own field (DESIGN CHOICE,
  safe, log 15) -/
  ordersSent : List (Leg × Order)
  deriving DecidableEq, Repr

/-- Why the machine stops with a fault. The spec gives the FB40 no such event: a refused command answers a result code
(R178), and every other trouble is an effect on the state. So there is no reason and nothing raises one; this is safe. -/
inductive Fault where
  deriving DecidableEq, Repr

/-- Why a command has no meaning. -/
inductive Refusal where
  /-- Raised by an arm of exec for a command the model does not give a meaning yet; safe, since it stops. No arm raises
  it now. -/
  | notModelled (mnemonic : String)
  deriving DecidableEq, Repr

/-! ### Reset -/

/-- The station address that strap levels select: 15 is taken as 0 (R173). -/
def stationOf (straps : BitVec 4) : BitVec 4 :=
  if straps = 15 then 0 else straps

/-- The hold reason set with no member. -/
def HoldReasons.empty : HoldReasons := ⟨false, false, false, false, false, false, false⟩

/-- A leg port after reset (R87). The first window has the default length of parameter 8 (DEDUCED, log 14). -/
def Port.reset : Port where
  linkUp := false
  loss := .none
  windowCount := 0
  goodRun := 0
  windowPeriod := 20
  lastNumber := 15
  lastKind := none
  pending := none
  retries := 0
  echoTimer := .stopped
  arming := .unarmed
  slipHeld := false
  rearmTimer := .stopped
  jointFault := false
  report := ⟨0, 0, false, false, 0⟩

/-- A leg phase machine after reset (R113). -/
def LegState.reset : LegState where
  phase := .unseen
  stance := none
  target := none
  bounce := 0
  slipLatched := false
  stepFlag := false
  swingTimer := .stopped
  descentTimer := .stopped
  settleTimer := .stopped

/-- No margin (R133). -/
def Margin.degenerate : Margin := ⟨0x8000, .degen⟩

/-- The machine after a reset that finds the straps at these levels (R23, R46, R63, R87, R113, R132, R148, R160, R171,
R184, R186, R187). No command waits in it and no order has been sent. -/
def State.resetWith (straps : BitVec 4) : State where
  pending := []
  lanes :=
    { straps := straps
      station := stationOf straps
      shutA := false
      shutB := false
      me := false
      broadcast := false
      lastHeader := 0
      inFlight := none }
  store :=
    { slots := Vector.replicate 40 none
      gens := Vector.replicate 40 0
      walk := none
      sweep := none
      friction := defaultFriction }
  queues := .const []
  ports := .const .reset
  legs := .const .reset
  newFronts := .const false
  seq :=
    { gait := .off
      pattern := .forward
      pointer := .lh
      stride := 0
      reasons := .empty
      haltReason := none
      liftPending := none }
  bal :=
    { pose := ⟨0, 0, 0, 0⟩
      freshness := .none
      poseTimer := .stopped
      current := .degenerate
      currentLegs := .const false
      lift := .degenerate
      liftLeg := none
      sat := false
      degen := false }
  trips :=
    { terms := Vector.replicate 8 ⟨false, .currentMargin, .lf, .below, 0, false⟩
      trips := Vector.replicate 4 ⟨.any, 0, 0, 0, 10, .attention, .disarmed, .stopped⟩
      copies :=
        { currentMargin := -32768
          liftMargin := -32768
          normalLoad := .const 0
          tangentialRatio := .const 0
          pitch := 0
          roll := 0
          overtemp := .const 0
          candidateCount := 0
          slipCount := .const 0 } }
  attn :=
    { nodes := Vector.replicate 8 ⟨0, false, none, false⟩
      line := false
      tipHolds := false
      checkFlag := false
      frameFlag := false }
  params := defaultParams
  ordersSent := []

/-- The machine right after reset, with the board's strap levels (DESIGN CHOICE, unsafe, log 5). -/
def State.reset : State := State.resetWith Config.boardStraps

end Sys2Proof.Machine
end

