-- ==== Sys2Proof/Machine/Ops.lean ====
section
/-! DEFINITION. The named operations over the state: the homes of the registers, the record's check code and its
transitions, attention nodes, queues and orders. -/

namespace Sys2Proof.Machine

/-! ### Homes -/

/-- The record slot of an index (R1). -/
def State.slot (s : State) (i : RecordIndex) : Option FootRecord := s.store.slots[i]

/-- Replaces the record slot of an index. -/
def State.setSlot (s : State) (i : RecordIndex) (r : Option FootRecord) : State :=
  { s with store := { s.store with slots := s.store.slots.set i r } }

/-- The generation of an index (R16). -/
def State.gen (s : State) (i : RecordIndex) : BitVec 4 := s.store.gens[i]

/-- Replaces the generation of an index. -/
def State.setGen (s : State) (i : RecordIndex) (g : BitVec 4) : State :=
  { s with store := { s.store with gens := s.store.gens.set i g } }

/-- The current handle of an index (R15). -/
def State.handleOf (s : State) (i : RecordIndex) : Handle := ⟨i, s.gen i⟩

/-- A leg's phase machine. -/
def State.leg (s : State) (l : Leg) : LegState := s.legs.get l

/-- Replaces a leg's phase machine. -/
def State.setLeg (s : State) (l : Leg) (v : LegState) : State := { s with legs := s.legs.set l v }

/-- A leg's port. -/
def State.port (s : State) (l : Leg) : Port := s.ports.get l

/-- Replaces a leg's port. -/
def State.setPort (s : State) (l : Leg) (v : Port) : State := { s with ports := s.ports.set l v }

/-- A leg's queue, front first (R47). -/
def State.queue (s : State) (l : Leg) : List Handle := s.queues.get l

/-- Replaces a leg's queue. -/
def State.setQueue (s : State) (l : Leg) (q : List Handle) : State := { s with queues := s.queues.set l q }

/-- The report of a new front waits for a leg, or does not (R57, R105). -/
def State.setNewFront (s : State) (l : Leg) (b : Bool) : State := { s with newFronts := s.newFronts.set l b }

/-- An attention node. -/
def State.node (s : State) (n : NodeNumber) : Node := s.attn.nodes[n]

/-- Replaces the gait sequencer's state. -/
def State.setSeq (s : State) (q : Sequencer) : State := { s with seq := q }

/-- Replaces the balance monitor's state. -/
def State.setBal (s : State) (b : Balance) : State := { s with bal := b }

/-- Replaces the trip unit's state. -/
def State.setTrips (s : State) (t : TripUnit) : State := { s with trips := t }

/-- Replaces the lane interface's state. -/
def State.setLanes (s : State) (l : Lanes) : State := { s with lanes := l }

/-- Replaces the foothold store's state. -/
def State.setStore (s : State) (t : Store) : State := { s with store := t }

/-! ### Parameters (11.6) -/

/-- The value in force of a parameter, which is signed (R185, R186). -/
def State.param (s : State) (n : ParamNumber) : Int := s.params[n].toInt

/-- A parameter used as a count or a period; no such parameter is negative (11.6). -/
def State.paramNat (s : State) (n : ParamNumber) : Nat := (s.param n).toNat

/-- A timer that starts now with the period in force for its parameter (00_scope.md, "Timers"). -/
def State.timerFor (s : State) (n : ParamNumber) : Timer := .running (s.paramNat n)

/-! ### The record's words and its check code (R17, 11.3) -/

/-- The class word: surface class 15–12, slope grade 11–8, confidence 7–0, from the stored widths (11.3). -/
def classWordOf (c : Sys2Proof.StoredContent) : Word :=
  (0#1 ++ c.surfaceClass) ++ c.slope ++ (0#4 ++ c.confidence)

/-- The slip word: slip count 10–8, generation 3–0 (11.3). -/
def slipWord (slips : BitVec 3) (gen : BitVec 4) : Word :=
  (0#5 ++ slips) ++ (0#4 ++ gen)

/-- The six words that the check code covers, in order (R17). -/
def coveredWords (c : Sys2Proof.StoredContent) (gen : BitVec 4) : List Word :=
  [c.x, c.y, c.z, classWordOf c, c.friction.setWidth 16, slipWord c.slips gen]

/-- The check code of a record's content (R17). -/
def contentCheck (c : Sys2Proof.StoredContent) (gen : BitVec 4) : Word :=
  checkCode (coveredWords c gen)

/-- The content with its check code recomputed from the fields as they stand (R17). -/
def sealContent (c : Sys2Proof.StoredContent) (gen : BitVec 4) : Sys2Proof.StoredContent :=
  { c with check := contentCheck c gen }

/-- The stored check code matches the content as stored (R19). -/
def verifies (c : Sys2Proof.StoredContent) (gen : BitVec 4) : Bool :=
  contentCheck c gen == c.check

/-! ### Admissibility (R21) -/

/-- The slope test: the tangent of the slope grade is less than the friction estimate; grades 13 to 15 fail (R21). -/
def slopePasses (c : Sys2Proof.StoredContent) : Bool :=
  match slopeTangent c.slope with
  | some t => t < c.friction.toNat
  | none => false

/-- The confidence test against the min-confidence parameter (13) in force (R21). -/
def State.confidencePasses (s : State) (c : Sys2Proof.StoredContent) : Bool :=
  s.param 13 ≤ (c.confidence.toNat : Int)

/-- The number of CANDIDATE records that pass the slope test and the confidence test (R150, CANDIDATE_COUNT). -/
def State.candidateCount (s : State) : Nat :=
  (s.store.slots.toList.filter fun slot =>
    match slot with
    | some r => r.state == .candidate && slopePasses r.content && s.confidencePasses r.content
    | none => false).length

/-! ### Transitions of a record's state (R4, R5, R8 to R14)

Each is taken by a record in the state it starts from. A record in another state is left as it stands; no reachable state
asks for that (DESIGN CHOICE, safe, log 20). -/

/-- A change of state to a non-FREE state sets the stride tag (R4). -/
def FootRecord.moveTo (r : FootRecord) (st : RecordState) (stride : BitVec 12) : FootRecord :=
  { r with state := st, tag := stride }

/-- Applies a change to the record at an index; a FREE slot is left FREE. -/
def State.modRecord (s : State) (i : RecordIndex) (f : FootRecord → FootRecord) : State :=
  match s.slot i with
  | some r => s.setSlot i (some (f r))
  | none => s

/-- CANDIDATE to RESERVED for a leg (R8). -/
def FootRecord.reserveFor (stride : BitVec 12) (leg : Leg) (r : FootRecord) : FootRecord :=
  if r.state = .candidate then r.moveTo (.reserved leg) stride else r

/-- RESERVED to TARGET, the owner leg kept (R8). -/
def FootRecord.takeAsTarget (stride : BitVec 12) (leg : Leg) (r : FootRecord) : FootRecord :=
  if r.state = .reserved leg then r.moveTo (.target leg) stride else r

/-- TARGET to RESERVED at lift withdrawal, the owner leg kept (R8). -/
def FootRecord.handBack (stride : BitVec 12) (leg : Leg) (r : FootRecord) : FootRecord :=
  if r.state = .target leg then r.moveTo (.reserved leg) stride else r

/-- RESERVED to CANDIDATE, the owner leg removed (R8). -/
def FootRecord.unreserve (stride : BitVec 12) (leg : Leg) (r : FootRecord) : FootRecord :=
  if r.state = .reserved leg then r.moveTo .candidate stride else r

/-- TARGET to CANDIDATE, the owner leg removed (R8). -/
def FootRecord.releaseTarget (stride : BitVec 12) (leg : Leg) (r : FootRecord) : FootRecord :=
  if r.state = .target leg then r.moveTo .candidate stride else r

/-- TARGET to LOADED at stance confirmation, the check-failed flag clear (R9). -/
def FootRecord.confirm (stride : BitVec 12) (leg : Leg) (r : FootRecord) : FootRecord :=
  if r.state = .target leg then r.moveTo (.loaded leg false) stride else r

/-- CANDIDATE to LOADED at ADOPT, the check-failed flag clear (R9). -/
def FootRecord.adoptFor (stride : BitVec 12) (leg : Leg) (r : FootRecord) : FootRecord :=
  if r.state = .candidate then r.moveTo (.loaded leg false) stride else r

/-- TARGET to SUSPECT with nothing else changed: a bounce at the bounce limit (R10). -/
def FootRecord.suspectTarget (stride : BitVec 12) (leg : Leg) (r : FootRecord) : FootRecord :=
  if r.state = .target leg then r.moveTo .suspect stride else r

/-- LOADED to SUSPECT with the content kept (R11, R12). -/
def FootRecord.suspectLoaded (stride : BitVec 12) (r : FootRecord) : FootRecord :=
  match r.state with
  | .loaded _ _ => r.moveTo .suspect stride
  | _ => r

/-- One slip charged to the content: the slip count adds one and holds at 7, the friction estimate falls by the derate
step and stops at 0, the check code is recomputed (R3, R17). -/
def chargedContent (derate : BitVec 7) (gen : BitVec 4) (c : Sys2Proof.StoredContent) : Sys2Proof.StoredContent :=
  sealContent
    { c with
      slips := if c.slips = 7 then 7 else c.slips + 1
      friction := BitVec.ofNat 9 (c.friction.toNat - derate.toNat) } gen

/-- The friction table's entry for a class (R22). -/
def State.frictionOf (s : State) (surfaceClass : BitVec 3) : FrictionEntry :=
  s.store.friction[surfaceClass.toFin]

/-- One slip charged to a record, by the derate step of its class in force (R3). -/
def State.chargeSlip (s : State) (i : RecordIndex) (r : FootRecord) : FootRecord :=
  { r with content := chargedContent (s.frictionOf r.content.surfaceClass).derate (s.gen i) r.content }

/-- The vacate of a clean record to CANDIDATE: confidence raised by the bonus and held at 15, birth stride and stride tag
set, check code recomputed (R11). -/
def FootRecord.vacateClean (stride : BitVec 12) (bonus : Nat) (gen : BitVec 4) (r : FootRecord) : FootRecord :=
  { r with
    state := .candidate
    birth := stride
    tag := stride
    content :=
      sealContent { r.content with confidence := BitVec.ofNat 4 (min 15 (r.content.confidence.toNat + bonus)) } gen }

/-- The check-failed flag of a LOADED record set (R5, R20). -/
def FootRecord.markFailed (r : FootRecord) : FootRecord :=
  match r.state with
  | .loaded o _ => { r with state := .loaded o true }
  | _ => r

/-! ### Attention nodes (R161 to R164) -/

/-- The ATTN line is asserted exactly when some node is pending, enabled and of priority at least 1 (R164). -/
def lineOf (nodes : Vector Node 8) : Bool :=
  nodes.toList.any fun n => n.pending.isSome && n.enabled && n.priority != 0

/-- Replaces an attention node and re-forms the ATTN line in the same event (R164). -/
def State.setNode (s : State) (n : NodeNumber) (v : Node) : State :=
  let nodes := s.attn.nodes.set n v
  { s with attn := { s.attn with nodes := nodes, line := lineOf nodes } }

/-- A cause reaching a node: a node not pending becomes pending with the cause's detail; a pending node keeps its detail
and its more flag is set (R162). -/
def Node.pend (d : Detail) (v : Node) : Node :=
  match v.pending with
  | none => { v with pending := some d }
  | some _ => { v with more := true }

/-- A cause taken at a node (R162). -/
def State.pend (s : State) (n : NodeNumber) (d : Detail) : State :=
  s.setNode n ((s.node n).pend d)

/-- The TIP node (R161). -/
abbrev nodeTip : NodeNumber := 0
/-- The SLIP node (R161). -/
abbrev nodeSlip : NodeNumber := 1
/-- The MISS node (R161). -/
abbrev nodeMiss : NodeNumber := 2
/-- The LEG node (R161). -/
abbrev nodeLeg : NodeNumber := 3
/-- The GAIT node (R161). -/
abbrev nodeGait : NodeNumber := 4
/-- The RECORD node (R161). -/
abbrev nodeRecord : NodeNumber := 5
/-- The TRIP node (R161). -/
abbrev nodeTrip : NodeNumber := 6
/-- The DONE node (R161). -/
abbrev nodeDone : NodeNumber := 7

/-! ### Changes to FREE and check failures (R6, R20, R34) -/

/-- The change of a record to FREE: its fields cease, the index's generation advances by one, and for every reason but
CLIENT the RECORD node pends with the handle as it was and the reason (R6, R16, R34). -/
def State.freeRecord (s : State) (i : RecordIndex) (reason : RetireReason) : State :=
  match s.slot i with
  | none => s
  | some _ =>
    let freed := (s.setSlot i none).setGen i (s.gen i + 1)
    if reason = .client then freed else freed.pend nodeRecord (.record (s.handleOf i) reason)

/-- The sticky CHECK bit that every check failure sets (R20). -/
def State.setCheckFlag (s : State) : State := { s with attn := { s.attn with checkFlag := true } }

/-- The sticky FRAME bit (R66, R174). -/
def State.setFrameFlag (s : State) : State := { s with attn := { s.attn with frameFlag := true } }

/-- The part of a check failure that the store takes where the outcome is FREE (R20). -/
def State.freeFailed (s : State) (i : RecordIndex) : State := s.setCheckFlag.freeRecord i .check

/-- The part of a check failure that the store takes on a LOADED record: the flag, the CHECK bit and the RECORD node
(R20, R34). -/
def State.flagFailed (s : State) (i : RecordIndex) : State :=
  (s.setCheckFlag.modRecord i FootRecord.markFailed).pend nodeRecord (.record (s.handleOf i) .check)

/-! ### Legs -/

/-- The phases in flight (R88). -/
def Phase.inFlight : Phase → Bool
  | .unloading | .swing | .seeking | .descent | .touchdown => true
  | .unseen | .idle | .stance | .lost => false

/-- The linked phases (R88). -/
def Phase.linked : Phase → Bool
  | .unseen | .lost => false
  | .idle | .stance | .unloading | .swing | .seeking | .descent | .touchdown => true

/-- Some leg is in flight (R88). -/
def State.anyInFlight (s : State) : Bool := Leg.all.any fun l => (s.leg l).phase.inFlight

/-- All four legs are in STANCE (R125, R126, R130). -/
def State.allStance (s : State) : Bool := Leg.all.all fun l => (s.leg l).phase == .stance

/-- Walking is selected: WALKING or HOLDING (6.2). -/
def Gait.isWalking : Gait → Bool
  | .walking | .holding => true
  | .off | .standing | .stopping | .halted => false

/-- Walking is selected (6.2). -/
def State.walkingSelected (s : State) : Bool := s.seq.gait.isWalking

/-- A rebase walk is in flight (R42). -/
def State.rebasing (s : State) : Bool := s.store.walk.isSome

/-! ### Orders (R68 to R71) -/

/-- An order asked of a leg's port: on an UP link it is numbered, sent, made pending in place of any pending order, and
the echo timer starts; on a DOWN link nothing happens (R68, R71). -/
def State.sendOrder (s : State) (l : Leg) (kind : OrderKind) (dx dy z : Word) : State :=
  let p := s.port l
  if p.linkUp then
    let o : Order := ⟨p.lastNumber + 1, kind, dx, dy, z⟩
    { s.setPort l
        { p with
          lastNumber := o.number
          lastKind := some kind
          pending := some o
          retries := 0
          echoTimer := s.timerFor 10 } with
      ordersSent := s.ordersSent ++ [(l, o)] }
  else s

/-- An order of a kind other than PLACE, whose three words are 0 (R68). -/
def State.sendPlain (s : State) (l : Leg) (kind : OrderKind) : State := s.sendOrder l kind 0 0 0

/-- The kind's number in the order word (11.5). -/
def OrderKind.number : OrderKind → BitVec 3
  | .hold => 0
  | .lift => 1
  | .place => 2
  | .brace => 3
  | .retract => 4

/-- The five words of an order frame: order word, dx, dy, z and the check word over them (R68, 11.5). -/
def Order.words (o : Order) : List Word :=
  let body : List Word := [o.number ++ 0#9 ++ o.kind.number, o.dx, o.dy, o.z]
  body ++ [checkCode body]

/-- An integer held to −32767 to +32767 (R41, R43, R68). -/
def clampPosition (v : Int) : Int := max (-32767) (min 32767 v)

/-- A position, offset or margin lies within −32767 to +32767 (R2, R40). -/
def inFrame (v : Int) : Bool := (-32767 : Int) ≤ v && v ≤ 32767

/-- The difference a − b of two positions, held to range, as a word (R68). -/
def heldDifference (a b : Word) : Word := BitVec.ofInt 16 (clampPosition (a.toInt - b.toInt))

/-! ### Queues (R47) -/

/-- The record of an index taken out of a leg's queue; the entries behind it move up one place (R47, R56). -/
def State.dropFromQueue (s : State) (l : Leg) (i : RecordIndex) : State :=
  s.setQueue l ((s.queue l).filter fun h => h.index ≠ i)

/-- The queue has a new front: after the change its front is a record that was not its front before (R48). -/
def hasNewFront (before after : List Handle) : Bool :=
  match after with
  | [] => false
  | h :: _ => before.head? != some h

end Sys2Proof.Machine
end

