-- ==== Sys2Proof/Machine/Operands.lean ====
section
/-! DEFINITION. The operand words of commands and reports, and the answer words of responses: every layout of 11.3, 11.4
and 11.5. -/

namespace Sys2Proof.Machine

/-! ### Operand words -/

/-- A leg word: 0 to 3; none for any other, which the range check refuses (R185). -/
def legOf (w : Word) : Option Leg :=
  match w.toNat with
  | 0 => some .lf
  | 1 => some .rf
  | 2 => some .lh
  | 3 => some .rh
  | _ => none

/-- The position word is one a path that writes positions refuses: −32768 (R2). -/
def isLowest (w : Word) : Bool := w == 0x8000

/-- The index field of a handle word, bits 9–4 (11.3). -/
def handleIndex (w : Word) : Nat := (w.extractLsb' 4 6).toNat

/-- The generation field of a handle word, bits 3–0 (11.3). -/
def handleGen (w : Word) : BitVec 4 := w.extractLsb' 0 4

/-- The record a handle word names: its index is 0 to 39, its generation is current and the record is not FREE (R15). -/
def State.named (s : State) (w : Word) : Option (RecordIndex × FootRecord) :=
  if h : handleIndex w < 40 then
    let i : RecordIndex := ⟨handleIndex w, h⟩
    if s.gen i = handleGen w then (s.slot i).map fun r => (i, r) else none
  else none

/-- The surface class field of a class word, 15–12 (11.3). -/
def classField (w : Word) : Nat := (w.extractLsb' 12 4).toNat

/-- The slope grade field of a class word, 11–8 (11.3). -/
def slopeField (w : Word) : Nat := (w.extractLsb' 8 4).toNat

/-- The confidence field of a class word, 7–0 (11.3). -/
def confidenceField (w : Word) : Nat := (w.extractLsb' 0 8).toNat

/-- The AMEND mask's selections (11.3). -/
def selPosition (mask : Word) : Bool := mask.getLsbD 0
/-- The AMEND mask's CLASS selection (11.3). -/
def selClass (mask : Word) : Bool := mask.getLsbD 1
/-- The AMEND mask's SLOPE selection (11.3). -/
def selSlope (mask : Word) : Bool := mask.getLsbD 2
/-- The AMEND mask's CONFIDENCE selection (11.3). -/
def selConfidence (mask : Word) : Bool := mask.getLsbD 3
/-- The AMEND mask's CLEAR_SLIPS selection (11.3). -/
def selClearSlips (mask : Word) : Bool := mask.getLsbD 4

/-- The source a number names (R150). -/
def sourceOf (n : Nat) : Option Source :=
  match n with
  | 0 => some .currentMargin
  | 1 => some .liftMargin
  | 2 => some .normalLoad
  | 3 => some .tangentialRatio
  | 4 => some .pitch
  | 5 => some .roll
  | 6 => some .overtemp
  | 7 => some .candidateCount
  | 8 => some .slipCount
  | _ => none

/-- The relation a number names (R149). -/
def relationOf (n : Nat) : Option Relation :=
  match n with
  | 0 => some .below
  | 1 => some .atOrAbove
  | _ => none

/-- The trip mode a number names (R153). -/
def tripModeOf (n : Nat) : Option TripMode :=
  match n with
  | 0 => some .all
  | 1 => some .any
  | 2 => some .sequence
  | _ => none

/-- The trip action a number names (R153). -/
def tripActionOf (n : Nat) : Option TripAction :=
  match n with
  | 0 => some .attention
  | 1 => some .hold
  | 2 => some .halt
  | _ => none

/-- A number below a bound, as an index. -/
def indexOf (bound n : Nat) : Option (Fin bound) := if h : n < bound then some ⟨n, h⟩ else none

/-- The lane a number names (R182). -/
def laneOf (w : Word) : Option Lane :=
  match w.toNat with
  | 0 => some .a
  | 1 => some .b
  | _ => none

/-! ### Numbers of names in answer words -/

/-- A leg's number in a two-bit field. -/
def legBits (l : Leg) : BitVec 2 := BitVec.ofNat 2 l.number

/-- The client's number (11.2). -/
def clientBits : Client → BitVec 2
  | .perception => 1
  | .planner => 2
  | .supervisor => 3

/-- The loss reason's number (11.4). -/
def lossNumber : LossReason → BitVec 3
  | .none => 0
  | .silent => 1
  | .noEcho => 2
  | .relink => 3
  | .joint => 4

/-- The phase's number (11.4). -/
def phaseNumber : Phase → BitVec 4
  | .unseen => 0
  | .idle => 1
  | .stance => 2
  | .unloading => 3
  | .swing => 4
  | .seeking => 5
  | .descent => 6
  | .touchdown => 7
  | .lost => 8

/-- The gait state's number (R114). -/
def gaitNumber : Gait → BitVec 4
  | .off => 0
  | .standing => 1
  | .walking => 2
  | .holding => 3
  | .stopping => 4
  | .halted => 5

/-- The halt cause's number (R114). -/
def haltNumber : HaltCause → BitVec 4
  | .client => 1
  | .tip => 2
  | .supportLost => 3
  | .legLost => 4
  | .slipLimit => 5
  | .swingTimeout => 6
  | .check => 7
  | .trip => 8

/-- The classification's number (R133). -/
def classNumber : MarginClass → BitVec 3
  | .inside => 0
  | .onEdge => 1
  | .outside => 2
  | .degen => 3
  | .saturated => 4

/-- The freshness's number (11.4). -/
def freshnessNumber : Freshness → BitVec 2
  | .none => 0
  | .fresh => 1
  | .stale => 2

/-- The retire reason's number (R34). -/
def retireNumber : RetireReason → BitVec 3
  | .client => 0
  | .expired => 1
  | .void => 2
  | .check => 3
  | .outOfFrame => 4

/-- The LEG detail's kind number (11.4). -/
def legEventNumber : LegEventKind → BitVec 2
  | .lost => 0
  | .returned => 1
  | .unexpectedUnload => 2
  | .lateContact => 3

/-- The trip state's number (R153). -/
def tripStateNumber : TripState → BitVec 2
  | .disarmed => 0
  | .armed => 1
  | .primed => 2
  | .fired => 3

/-! ### Answer words -/

/-- One bit of an answer word. -/
def bit (b : Bool) : BitVec 1 := BitVec.ofBool b

/-- The handle word NONE: index 63, generation 0 (R15, 11.3). -/
def noneHandleWord : Word := 0x03F0

/-- A handle word: index 9–4, generation 3–0 (11.3). -/
def Handle.word (h : Handle) : Word := 0#6 ++ BitVec.ofNat 6 h.index.val ++ h.gen

/-- A handle word, NONE where there is no record to name (R15). -/
def handleWord : Option Handle → Word
  | some h => h.word
  | none => noneHandleWord

/-- The record state's number (11.3). -/
def recordStateNumber : RecordState → BitVec 3
  | .candidate => 1
  | .reserved _ => 2
  | .target _ => 3
  | .loaded _ _ => 4
  | .suspect => 5

/-- The owner leg field: the leg, or 7 for none (11.3). -/
def ownerField : RecordState → BitVec 3
  | .reserved o | .target o | .loaded o _ => 0#1 ++ legBits o
  | .candidate | .suspect => 7

/-- The check-failed flag, clear where the state is not LOADED (R30). -/
def RecordState.isFailed : RecordState → Bool
  | .loaded _ f => f
  | .candidate | .reserved _ | .target _ | .suspect => false

/-- The record state word: state 10–8, origin 7–6, owner 5–3, check-failed flag 0 (11.3). -/
def recordStateWord (r : FootRecord) : Word :=
  0#5 ++ recordStateNumber r.state ++ clientBits r.origin ++ ownerField r.state ++ 0#2 ++ bit r.state.isFailed

/-- The ten record words of QUERY (11.3). -/
def recordWords (h : Handle) (r : FootRecord) : List Word :=
  [h.word, recordStateWord r, r.content.x, r.content.y, r.content.z, classWordOf r.content,
    r.content.friction.setWidth 16, slipWord r.content.slips h.gen, r.birth.setWidth 16, r.tag.setWidth 16]

/-- The four answer words of QUEUE: the count and the entries front to back, NONE beyond the last (R55). -/
def queueWords (q : List Handle) : List Word :=
  [BitVec.ofNat 16 q.length, handleWord q[0]?, handleWord q[1]?, handleWord q[2]?]

/-- The six leg words of LEGSTATE (R111, 11.4). -/
def legWords (v : LegState) (p : Port) : List Word :=
  [phaseNumber v.phase ++ 0#2 ++ BitVec.ofNat 2 v.bounce ++ bit v.slipLatched ++ bit v.stepFlag
      ++ bit v.swingTimer.isRunning ++ bit p.linkUp ++ 0#1 ++ lossNumber p.loss,
    handleWord v.stance,
    handleWord v.target,
    bit p.jointFault ++ bit p.pending.isSome ++ bit p.slipHeld ++ bit p.report.arrived ++ bit p.report.overtemp
      ++ 0#8 ++ p.report.jointFault,
    p.report.normal.setWidth 16,
    p.report.tangential.setWidth 16]

/-- The hold reason word: bits 0 to 6 MARGIN, NO_FOOTHOLD, POSE_STALE, SLIP, REBASE, TRIP, PAUSE (11.4). -/
def reasonsWord (r : HoldReasons) : Word :=
  0#9 ++ bit r.pause ++ bit r.trip ++ bit r.rebase ++ bit r.slip ++ bit r.poseStale ++ bit r.noFoothold ++ bit r.margin

/-- The lift pending field: present, and its leg (11.4). -/
def liftField : Option Leg → BitVec 4
  | some l => 1#1 ++ 0#1 ++ legBits l
  | none => 0

/-- The pattern's bit (11.4). -/
def patternBit : Pattern → BitVec 1
  | .forward => 0
  | .backward => 1

/-- The halt reason's number, 0 for none (R114). -/
def haltReasonNumber : Option HaltCause → BitVec 4
  | some c => haltNumber c
  | none => 0

/-- The three words of the gait report (R124, 11.4). -/
def gaitReport (q : Sequencer) : List Word :=
  [gaitNumber q.gait ++ haltReasonNumber q.haltReason ++ patternBit q.pattern ++ 0#1 ++ legBits q.pointer
      ++ liftField q.liftPending,
    q.stride.setWidth 16,
    reasonsWord q.reasons]

/-- The current support legs, leg n at bit n (11.4). -/
def legSetBits (p : PerLeg Bool) : BitVec 4 := bit p.rh ++ bit p.lh ++ bit p.rf ++ bit p.lf

/-- The last lift leg, 7 for none (11.4). -/
def liftLegField : Option Leg → BitVec 3
  | some l => 0#1 ++ legBits l
  | none => 7

/-- The eight margin words of MARGIN (R147, 11.4). -/
def marginWords (b : Balance) : List Word :=
  let held := b.freshness ≠ .none
  [b.current.value,
    0#1 ++ liftLegField b.liftLeg ++ 0#1 ++ classNumber b.lift.cls ++ legSetBits b.currentLegs ++ 0#1
      ++ classNumber b.current.cls,
    b.lift.value,
    if held then b.pose.x else 0,
    if held then b.pose.y else 0,
    if held then b.pose.pitch else 0,
    if held then b.pose.roll else 0,
    0#6 ++ bit b.degen ++ bit b.sat ++ 0#6 ++ freshnessNumber b.freshness]

/-- Eight flags as bits, flag n at bit n. -/
def eightBits (f : Fin 8 → Bool) : BitVec 8 :=
  bit (f 7) ++ bit (f 6) ++ bit (f 5) ++ bit (f 4) ++ bit (f 3) ++ bit (f 2) ++ bit (f 1) ++ bit (f 0)

/-- A trip is FIRED with action HOLD or HALT (R159). -/
def Trip.holdsOrHalts (t : Trip) : Bool := t.state == .fired && (t.action == .hold || t.action == .halt)

/-- The three trip words of TRIPSTATE (R159, 11.4). -/
def tripWords (u : TripUnit) : List Word :=
  let st (n : Fin 4) := tripStateNumber u.trips[n].state
  let fh (n : Fin 4) := bit u.trips[n].holdsOrHalts
  [0#8 ++ st 3 ++ st 2 ++ st 1 ++ st 0,
    eightBits (fun n => u.terms[n].enabled) ++ eightBits (fun n => u.terms[n].truth),
    0#12 ++ fh 3 ++ fh 2 ++ fh 1 ++ fh 0]

/-- Detail word 1 (11.4, "Node and detail words"). -/
def Detail.word1 : Detail → Word
  | .client => 0x8000
  | .tip m => 0#13 ++ classNumber m.cls
  | .slip l t _ => 0#7 ++ bit t ++ 0#6 ++ legBits l
  | .miss l b _ => 0#7 ++ bit b ++ 0#6 ++ legBits l
  | .leg l k r => 0#5 ++ lossNumber r ++ 0#2 ++ legEventNumber k ++ 0#2 ++ legBits l
  | .gaitHolding _ => 0
  | .gaitHalted _ => 1
  | .gaitStanding => 2
  | .record _ r => 0#13 ++ retireNumber r
  | .trip n => BitVec.ofNat 16 n.val
  | .done n => BitVec.ofNat 16 n

/-- Detail word 2 (11.4, "Node and detail words"). -/
def Detail.word2 : Detail → Word
  | .client => 0
  | .tip m => m.value
  | .slip _ _ h => h.word
  | .miss _ _ h => h.word
  | .leg _ _ _ => 0
  | .gaitHolding r => reasonsWord r
  | .gaitHalted c => 0#12 ++ haltNumber c
  | .gaitStanding => 0
  | .record h _ => h.word
  | .trip _ => 0
  | .done _ => 0

/-- The three detail words, 0 when no detail is present; word 3 is 0 for every node (11.4). -/
def detailWords : Option Detail → List Word
  | some d => [d.word1, d.word2, 0]
  | none => [0, 0, 0]

/-- The four answer words of ATTENTION: the node word with pending, enable and priority, and the detail (R165, 11.4). -/
def attentionWords (n : NodeNumber) (v : Node) : List Word :=
  (bit v.more ++ bit v.pending.isSome ++ bit v.enabled ++ 0#1 ++ v.priority ++ 0#4 ++ BitVec.ofNat 4 n.val)
    :: detailWords v.pending

/-- The four answer words of VECTOR for a chosen node: its number, more flag and detail (R166, 11.4). -/
def vectorWords (n : NodeNumber) (v : Node) : List Word :=
  (bit v.more ++ 0#11 ++ BitVec.ofNat 4 n.val) :: detailWords v.pending

/-- The four answer words of VECTOR when no node qualifies: node 15, the more flag clear, detail words 0 (R166). -/
def vectorNone : List Word := [15, 0, 0, 0]

end Sys2Proof.Machine
end

