-- ==== Sys2Proof/Machine/Flags.lean ====
section
/-! DEFINITION. The flag words: the status word (R168), the condition word (R169) and the shut word (11.4), each formed
from the blocks that hold its fields. -/

namespace Sys2Proof.Machine

/-- LEG_FAULT: some leg is LOST, or some port has joint fault present (R168). -/
def State.legFault (s : State) : Bool :=
  Leg.all.any fun l => (s.leg l).phase == .lost || (s.port l).jointFault

/-- The status word: station 15–12, ME 11, ATTN 10, BUSY 9, HALTED 8, LEG_FAULT 7, BROADCAST 6 (R168, 11.2). -/
def State.statusWord (s : State) : Word :=
  s.lanes.station ++ bit s.lanes.me ++ bit s.attn.line ++ bit s.rebasing ++ bit (s.seq.gait == .halted)
    ++ bit s.legFault ++ bit s.lanes.broadcast ++ 0#6

/-- The condition word: link UP 3–0, joint fault present 7–4, lane shut 8 and 9, SAT 12, DEGEN 13, CHECK 14, FRAME 15
(R169, 11.4). -/
def State.conditionWord (s : State) : Word :=
  bit s.attn.frameFlag ++ bit s.attn.checkFlag ++ bit s.bal.degen ++ bit s.bal.sat ++ 0#2
    ++ bit s.lanes.shutB ++ bit s.lanes.shutA
    ++ bit (s.port .rh).jointFault ++ bit (s.port .lh).jointFault ++ bit (s.port .rf).jointFault
    ++ bit (s.port .lf).jointFault
    ++ bit (s.port .rh).linkUp ++ bit (s.port .lh).linkUp ++ bit (s.port .rf).linkUp ++ bit (s.port .lf).linkUp

/-- The shut word of LANE: lane A 0, lane B 1 (11.4). -/
def State.shutWord (s : State) : Word := 0#14 ++ bit s.lanes.shutB ++ bit s.lanes.shutA

/-- CLEARCOND's clear of the four sticky flags (R170). -/
def State.clearSticky (s : State) : State :=
  { s with
    attn := { s.attn with checkFlag := false, frameFlag := false }
    bal := { s.bal with sat := false, degen := false } }

end Sys2Proof.Machine
end

