-- ==== Sys2Proof/Machine/Lane.lean ====
section
/-! DEFINITION. The lane interface (chapter 10): the arrival of a frame, the cut of a response, permissions and the order
of checks, the response, and the taking of a reset. -/

namespace Sys2Proof.Machine

/-! ### Results and replies -/

/-- The result codes (R178). -/
inductive Result where
  | done
  | busy
  | notPermitted
  | noRecord
  | wrongState
  | inUse
  | full
  | empty
  | outOfRange
  | notAdmissible
  | tooClose
  | checkFailed
  | dequeued
  | notLoaded
  deriving DecidableEq, Repr

/-- A result code's number (R178). -/
def Result.code : Result → BitVec 4
  | .done => 0
  | .busy => 1
  | .notPermitted => 2
  | .noRecord => 3
  | .wrongState => 4
  | .inUse => 5
  | .full => 6
  | .empty => 7
  | .outOfRange => 8
  | .notAdmissible => 9
  | .tooClose => 10
  | .checkFailed => 11
  | .dequeued => 12
  | .notLoaded => 13

/-- What a command answers: its result, its answer words, and whether a reset is taken at the end of its response
(R183). -/
structure Reply where
  result : Result
  words : List Word
  thenReset : Bool
  deriving DecidableEq, Repr

/-- A command's effect: its reply and the state as it leaves the part. A command is a function of the sender's role, the
lane it arrived on and the state. -/
abbrev Effect := Reply × State

/-- A refusal changes nothing and most refusals carry no words (R178, R179). -/
def refuse (s : State) (r : Result) : Effect := (⟨r, [], false⟩, s)

/-- An answer without words. -/
def answer (s : State) (r : Result) : Effect := (⟨r, [], false⟩, s)

/-- DONE with answer words. -/
def doneWith (s : State) (words : List Word) : Effect := (⟨.done, words, false⟩, s)

/-! ### Permissions (R177) -/

/-- Every client may issue the command. -/
def anyClient (_ : Client) : Bool := true

/-- PLANNER and SUPERVISOR may issue it. -/
def notPerception : Client → Bool
  | .perception => false
  | .planner => true
  | .supervisor => true

/-- PERCEPTION and SUPERVISOR may issue it. -/
def notPlanner : Client → Bool
  | .perception => true
  | .planner => false
  | .supervisor => true

/-- SUPERVISOR alone may issue it. -/
def supervisorOnly : Client → Bool
  | .perception => false
  | .planner => false
  | .supervisor => true

/-- The first check of every command: permission (R178 step 1). -/
def permitted (allowed : Client → Bool) (c : Client) (s : State) (body : Effect) : Effect :=
  if allowed c then body else refuse s .notPermitted

/-- The first two checks of a BUSY-sensitive command: permission, then BUSY while a rebase walk is in flight (R178 steps
1 and 2). -/
def permittedIdle (allowed : Client → Bool) (c : Client) (s : State) (body : Effect) : Effect :=
  permitted allowed c s (if s.rebasing then refuse s .busy else body)

/-! ### Responses (R179, R180) -/

/-- A lane's transmitter is shut (R172). -/
def Lanes.isShut (v : Lanes) : Lane → Bool
  | .a => v.shutA
  | .b => v.shutB

/-- The FB40 sends a response on the lane (R174). -/
def State.sendingOn (s : State) (l : Lane) : Bool :=
  match s.lanes.inFlight with
  | some r => r.lane == l
  | none => false

/-- The result word: echoed command code 13–8, result code 3–0 (11.2). -/
def resultWord (code : BitVec 6) (r : Result) : Word := 0#2 ++ code ++ 0#4 ++ r.code

/-- A response frame: the status word as the command has left the part, the result word, the answer words, the check word
(R179). -/
def State.responseWords (s : State) (code : BitVec 6) (r : Reply) : List Word :=
  let body := s.statusWord :: resultWord code r.result :: r.words
  body ++ [checkCode body]

/-- A reset taken in every block: the state after reset, with the straps sampled again. The commands that still wait have
not arrived yet and go on waiting (R183, log 19). -/
def State.takeReset (s : State) (straps : BitVec 4) : State :=
  { State.resetWith straps with pending := s.pending }

/-- The response assembled and sent on the command's lane; on a shut lane or from a silent station it is not sent, and a
reset that was to follow it is taken at once (R179, R183). -/
def State.respond (s : State) (h : FrameHead) (code : BitVec 6) (r : Reply) : State :=
  if s.lanes.isShut h.lane || s.lanes.station == 0 then
    if r.thenReset then s.takeReset s.lanes.straps else s
  else s.setLanes { s.lanes with inFlight := some ⟨h.lane, s.responseWords code r, r.thenReset⟩ }

/-! ### Arrival of a frame (R174, R176, R180) -/

/-- A frame with this station field is for this station: broadcast, or equal to an address of 1 to 14 (R174 step 2). -/
def State.addressed (s : State) (h : FrameHead) : Bool :=
  isBroadcast h || (s.lanes.station != 0 && h.station == s.lanes.station)

/-- STATUS and LASTCMD, which leave ME, BROADCAST and the last command header as they stand (R179, R181). -/
def isReading (code : BitVec 6) : Bool := code == 28 || code == 29

/-- What a valid command does at the lane interface before it is handed to its owner (R176, R179). -/
def State.noteCommand (s : State) (h : FrameHead) (code : BitVec 6) (count : BitVec 4) : State :=
  if isReading code then s
  else s.setLanes
    { s.lanes with me := false, broadcast := isBroadcast h, lastHeader := headerWord h code count }

/-- A malformed frame sets ME and has no other effect (R175). -/
def State.noteMalformed (s : State) : State := s.setLanes { s.lanes with me := true }

/-- The valid command taken: noted, handed to its owner, and answered unless it was broadcast (R176, R179). -/
def State.takeCommand (s : State) (h : FrameHead) (code : BitVec 6) (count : BitVec 4)
    (effect : State → Effect) : State :=
  let e := effect (s.noteCommand h code count)
  if isBroadcast h then e.2 else e.2.respond h code e.1

/-- A frame that has passed its check (R174 steps 2 to 4, R180). A frame on a lane on which a response goes out is not
taken. A frame for another station is ignored. A frame for this station cuts a response in flight on the other lane, and
where that response was a RESET's the reset is taken and the frame is discarded (R183). A malformed frame then sets ME; a
valid one is taken as a command. effect is the command's, for a client role. -/
def State.arrive (s : State) (h : FrameHead) (code : BitVec 6) (count : BitVec 4) (data : List Word)
    (effect : Client → State → Effect) : State :=
  if s.sendingOn h.lane then s
  else if !s.addressed h then s
  else
    match s.lanes.inFlight with
    | some ⟨_, _, true⟩ => s.takeReset s.lanes.straps
    | _ =>
      let cut := s.setLanes { s.lanes with inFlight := none }
      match clientOf h.client with
      | none => cut.noteMalformed
      | some c =>
        if malformedForm h code count data then cut.noteMalformed
        else cut.takeCommand h code count (effect c)

/-- One event: the list of orders sent starts empty (log 15). -/
def event (s : State) (f : State → State) : Host.Outcome State Fault Refusal :=
  .next (f { s with ordersSent := [] })

/-- The event of the arrival of a command frame whose data count is the number of its data words. -/
def frameEvent (s : State) (h : FrameHead) (code : BitVec 6) (data : List Word)
    (effect : Client → State → Effect) : Host.Outcome State Fault Refusal :=
  event s fun s => s.arrive h code (BitVec.ofNat 4 data.length) data effect

end Sys2Proof.Machine
end

