-- ==== Sys2Proof/Machine/AttentionCommands.lean ====
section
/-! DEFINITION. The attention unit's commands ATTENTION, VECTOR, CONDITION and CLEARCOND (chapter 9). -/

namespace Sys2Proof.Machine

/-- The node not pending, its detail and more flag cleared (R165, R166). -/
def Node.cleared (v : Node) : Node := { v with pending := none, more := false }

/-- A node cleared; for the TIP node the re-pend of R163 follows if the condition holds: pending with the current margin
as it stands, the more flag clear. -/
def State.clearNode (s : State) (n : NodeNumber) (v : Node) : State :=
  if n = nodeTip ∧ s.attn.tipHolds then s.setNode n { v.cleared with pending := some (.tip s.bal.current) }
  else s.setNode n v.cleared

/-- ATTENTION on one node: priority and enable written, then set or clear by the flags; with both or neither the pending
state stands (R165). -/
def State.attend (s : State) (n : NodeNumber) (priority : BitVec 4) (enable set clear : Bool) : State :=
  let v := { s.node n with priority := priority, enabled := enable }
  if set && !clear then s.setNode n (v.pend .client)
  else if clear && !set then s.clearNode n v
  else s.setNode n v

/-- ATTENTION's effect: the flags word holds enable 0, set 1, clear 2 (R165, 11.4). -/
def takeAttention (node priority flags : Word) (c : Client) (s : State) : Effect :=
  permitted supervisorOnly c s <|
    match indexOf 8 node.toNat, indexOf 16 priority.toNat with
    | some n, some p =>
      let after := s.attend n (BitVec.ofFin p) (flags.getLsbD 0) (flags.getLsbD 1) (flags.getLsbD 2)
      doneWith after (attentionWords n (after.node n))
    | _, _ => refuse s .outOfRange

/-- ATTENTION. -/
def execAttention (h : FrameHead) (node priority flags : Word) (s : State) : Host.Outcome State Fault Refusal :=
  frameEvent s h 24 [node, priority, flags] (takeAttention node priority flags)

/-- A node that VECTOR may present: pending, enabled and of priority at least 1 (R164, R166). -/
def Node.presentable (v : Node) : Bool := v.pending.isSome && v.enabled && v.priority != 0

/-- The better of two nodes for VECTOR: the higher priority, and among equal priorities the lower number; later numbers
come later (R166). -/
def State.moreUrgent (s : State) (best : Option NodeNumber) (n : NodeNumber) : Option NodeNumber :=
  if (s.node n).presentable then
    match best with
    | none => some n
    | some m => if (s.node m).priority < (s.node n).priority then some n else some m
  else best

/-- The node VECTOR chooses (R166). -/
def State.chosenNode (s : State) : Option NodeNumber :=
  [(0 : NodeNumber), 1, 2, 3, 4, 5, 6, 7].foldl s.moreUrgent none

/-- VECTOR's effect: the chosen node as it stood, which is then cleared, or node 15 (R166). -/
def takeVector (c : Client) (s : State) : Effect :=
  permitted notPerception c s <|
    match s.chosenNode with
    | some n => doneWith (s.clearNode n (s.node n)) (vectorWords n (s.node n))
    | none => doneWith s vectorNone

/-- VECTOR. -/
def execVector (h : FrameHead) (s : State) : Host.Outcome State Fault Refusal :=
  frameEvent s h 25 [] takeVector

/-- CONDITION's effect (R169). -/
def takeCondition (c : Client) (s : State) : Effect := permitted anyClient c s (doneWith s [s.conditionWord])

/-- CONDITION. -/
def execCondition (h : FrameHead) (s : State) : Host.Outcome State Fault Refusal :=
  frameEvent s h 26 [] takeCondition

/-- CLEARCOND's effect: the word before the clear, and the four sticky flags cleared (R170). -/
def takeClearcond (c : Client) (s : State) : Effect :=
  permitted supervisorOnly c s (doneWith s.clearSticky [s.conditionWord])

/-- CLEARCOND. -/
def execClearcond (h : FrameHead) (s : State) : Host.Outcome State Fault Refusal :=
  frameEvent s h 27 [] takeClearcond

end Sys2Proof.Machine
end

