-- ==== Sys2Proof/Machine/MarginArith.lean ====
section
/-! DEFINITION. The margin arithmetic: the tests for no margin, the hull, the edge distances, the least of them and the
range (R139 to R141). Coordinates are exact integers. -/

namespace Sys2Proof.Machine

/-- A point of the horizontal plane. -/
structure Point where
  x : Int
  y : Int
  deriving DecidableEq, Repr

/-- The cross product of b − a and p − a: positive when p lies to the left of a→b (R140 step 1). -/
def cross (a b p : Point) : Int := (b.x - a.x) * (p.y - a.y) - (b.y - a.y) * (p.x - a.x)

/-- One binary place of the root: 2^k is added where the square stays at most q. -/
def rootBit (q r : Nat) (k : Nat) : Nat := if (r + 2 ^ k) * (r + 2 ^ k) ≤ q then r + 2 ^ k else r

/-- The greatest integer whose square is at most q, for q below 2^36; the squared lengths are below 2^34 (R140). -/
def rootFloor (q : Nat) : Nat :=
  [17, 16, 15, 14, 13, 12, 11, 10, 9, 8, 7, 6, 5, 4, 3, 2, 1, 0].foldl (rootBit q) 0

/-- The least integer whose square is at least q (R140 step 3). -/
def rootCeil (q : Nat) : Nat := if rootFloor q * rootFloor q = q then rootFloor q else rootFloor q + 1

/-- The squared length of an edge (R140 step 2). -/
def squaredLength (a b : Point) : Nat := ((b.x - a.x) * (b.x - a.x) + (b.y - a.y) * (b.y - a.y)).toNat

/-- The divisor of an edge: the upper root where the cross product is 0 or positive, the lower root where it is negative
(R140 step 3). -/
def edgeLength (a b p : Point) : Nat :=
  if 0 ≤ cross a b p then rootCeil (squaredLength a b) else rootFloor (squaredLength a b)

/-- The signed distance from p to the line through a and b, rounded toward minus infinity (R140 step 4). -/
def edgeDistance (p a b : Point) : Int := Int.fdiv (cross a b p) (edgeLength a b p)

/-- Three points lie on one line; coincident points do (R139 step 3). -/
def collinear (a b c : Point) : Bool := cross a b c == 0

/-- Every three points of the list lie on one line (R139 step 3). -/
def noArea : List Point → Bool
  | [a, b, c] => collinear a b c
  | [a, b, c, d] => collinear a b c && collinear a b d && collinear a c d && collinear b c d
  | _ => true

/-- p lies inside or on the boundary of the triangle a, b, c; where that triangle has no area its boundary is the segment
that its points span (R139 step 5). -/
def inTriangle (p a b c : Point) : Bool :=
  let u := cross a b p
  let v := cross b c p
  let w := cross c a p
  if cross a b c = 0 then
    u == 0 && v == 0 && w == 0
      && min a.x (min b.x c.x) ≤ p.x && p.x ≤ max a.x (max b.x c.x)
      && min a.y (min b.y c.y) ≤ p.y && p.y ≤ max a.y (max b.y c.y)
  else (0 ≤ u && 0 ≤ v && 0 ≤ w) || (u ≤ 0 && v ≤ 0 && w ≤ 0)

/-- The triangle's vertices in counter-clockwise order (R139 step 4). -/
def triangle (a b c : Point) : List Point := if 0 < cross a b c then [a, b, c] else [a, c, b]

/-- Every turn of the cyclic order a, b, c, d is to the left (R139 step 5). -/
def allLeft (a b c d : Point) : Bool :=
  0 < cross a b c && 0 < cross b c d && 0 < cross c d a && 0 < cross d a b

/-- The counter-clockwise order of four points none of which lies in the triangle of the others (R139 step 5): the cyclic
order, among the six that begin with a, in which every turn is to the left. -/
def quadrilateral (a b c d : Point) : List Point :=
  if allLeft a b c d then [a, b, c, d]
  else if allLeft a b d c then [a, b, d, c]
  else if allLeft a c b d then [a, c, b, d]
  else if allLeft a c d b then [a, c, d, b]
  else if allLeft a d b c then [a, d, b, c]
  else [a, d, c, b]

/-- The hull of three or four points that enclose an area, given in the order of their legs' numbers (R139 steps 4, 5). -/
def hull : List Point → List Point
  | [a, b, c] => triangle a b c
  | [a, b, c, d] =>
    if inTriangle a b c d then triangle b c d
    else if inTriangle b a c d then triangle a c d
    else if inTriangle c a b d then triangle a b d
    else if inTriangle d a b c then triangle a b c
    else quadrilateral a b c d
  | _ => []

/-- The distances of a point from the edges of a hull, each from a vertex to the next (R140). -/
def edgeDistances (p : Point) : List Point → List Int
  | [a, b, c] => [edgeDistance p a b, edgeDistance p b c, edgeDistance p c a]
  | [a, b, c, d] => [edgeDistance p a b, edgeDistance p b c, edgeDistance p c d, edgeDistance p d a]
  | _ => []

/-- The least of a list of distances (R141). -/
def least : List Int → Int
  | [] => 0
  | d :: ds => ds.foldl min d

/-- The margin for a least distance: clipped below −32767, else classified by its sign (R141). -/
def marginOfLeast (d : Int) : Margin :=
  if d < -32767 then ⟨BitVec.ofInt 16 (-32767), .saturated⟩
  else ⟨BitVec.ofInt 16 d, if 0 < d then .inside else if d = 0 then .onEdge else .outside⟩

/-- The margin of a set of points, given in leg order, for a CoM point; none where no pose is held (R139 to R141). -/
def marginOf (com : Option Point) (points : List Point) : Margin :=
  match com with
  | none => .degenerate
  | some p =>
    if points.length < 3 || noArea points then .degenerate
    else marginOfLeast (least (edgeDistances p (hull points)))

end Sys2Proof.Machine
end

