-- ==== Sys2Proof/Machine/Placement.lean ====
section
/-! DEFINITION. The queue front's test (R21, R57, R121), the target take (R57), the composition of a PLACE order (R68,
R93) and the placement of a SEEKING leg (R105). -/

namespace Sys2Proof.Machine

/-- What a test of a queue's front finds (R57, R121 step 2). -/
inductive FrontTest where
  /-- the queue is empty -/
  | empty
  /-- the front fails the slope or the confidence test -/
  | inadmissible
  /-- the front passes both and a check failure is found on it -/
  | failed (front : Handle)
  /-- the front passes all three tests -/
  | usable (front : Handle)
  deriving DecidableEq, Repr

/-- The test of a leg's queue front: the three tests of R21 in their order. A front that is no RESERVED record of the
leg, which R47 rules out, blocks the queue (log 20). -/
def State.frontTest (s : State) (l : Leg) : FrontTest :=
  match s.queue l with
  | [] => .empty
  | h :: _ =>
    match s.slot h.index with
    | none => .inadmissible
    | some r =>
      if r.state ≠ .reserved l then .inadmissible
      else if !slopePasses r.content then .inadmissible
      else if !s.confidencePasses r.content then .inadmissible
      else if verifies r.content (s.gen h.index) then .usable h
      else .failed h

/-- A check failure of a RESERVED record: it leaves its queue and becomes FREE with reason CHECK (R20, R56). -/
def State.failReserved (s : State) (l : Leg) (i : RecordIndex) : State :=
  (s.dropFromQueue l i).freeFailed i

/-- The front leaves the queue and becomes TARGET, its stride tag set (R57, R8). -/
def State.takeFront (s : State) (l : Leg) (h : Handle) : State :=
  (s.dropFromQueue l h.index).modRecord h.index (FootRecord.takeAsTarget s.seq.stride l)

/-- The leg has no target any longer: it enters SEEKING, its descent and settle timers stop, its bounce count is 0, and
RETRACT is asked for (R97, R99, R100, R108). -/
def State.enterSeeking (s : State) (l : Leg) : State :=
  (s.setLeg l
    { s.leg l with
      phase := .seeking
      target := none
      bounce := 0
      descentTimer := .stopped
      settleTimer := .stopped }).sendPlain l .retract

/-- The CoM that a PLACE order is composed against: the held pose, fresh or stale, or 0, 0 with no pose held (R93,
R136). -/
def Balance.com (b : Balance) : Word × Word :=
  if b.freshness = .none then (0, 0) else (b.pose.x, b.pose.y)

/-- A PLACE order composed for the leg's target: the target is verified; if it verifies the port is asked for PLACE with
dx, dy and z; if a check failure is found the target becomes FREE, and the leg enters SEEKING with RETRACT (R68, R93,
R20). -/
def State.composePlace (s : State) (l : Leg) : State :=
  match (s.leg l).target with
  | none => s
  | some h =>
    match s.slot h.index with
    | none => s
    | some r =>
      if r.state ≠ .target l then s
      else if verifies r.content (s.gen h.index) then
        s.sendOrder l .place (heldDifference r.content.x s.bal.com.1) (heldDifference r.content.y s.bal.com.2)
          r.content.z
      else (s.freeFailed h.index).enterSeeking l

/-- A SEEKING leg takes its usable front: TARGET, SWING, bounce count 0, the swing timer started afresh, PLACE composed
(R105, R107). -/
def State.enterSwing (s : State) (l : Leg) (h : Handle) : State :=
  let taken := s.takeFront l h
  (taken.setLeg l
    { taken.leg l with
      phase := .swing
      target := some h
      bounce := 0
      swingTimer := s.timerFor 6 }).composePlace l

/-- A take answered CHECK: the front becomes FREE and leaves the queue, and the take goes no further. Where the queue has a
new front, its report to the leg waits for an event of its own (R57, R105; log 9). -/
def State.failFront (s : State) (l : Leg) (h : Handle) : State :=
  let failed := s.failReserved l h.index
  if failed.queue l = [] then failed else failed.setNewFront l true

/-- The one target take that a leg in SEEKING asks for, by its outcome (R57, R105). -/
def State.takeForSeeking (s : State) (l : Leg) : State :=
  match s.frontTest l with
  | .empty => s
  | .inadmissible => s
  | .failed h => s.failFront l h
  | .usable h => s.enterSwing l h

/-- The take that a leg in SEEKING asks for: in every gait state except OFF, and held while a rebase walk is in flight
(R42, R105). Each occasion of R105 asks for a take of its own on the front as it then stands, two occasions in one event
too (State.completeWalk, State.liftoffStance; DESIGN CHOICE, unsafe, log 27). -/
def State.seek (s : State) (l : Leg) : State :=
  if (s.leg l).phase = .seeking ∧ s.seq.gait ≠ .off ∧ s.rebasing = false then s.takeForSeeking l else s

end Sys2Proof.Machine
end

