-- ==== Sys2Proof/Machine/Halt.lean ====
section
/-! DEFINITION. The hold reason set and the gait state that follows it (R115, R118, R119), the lift withdrawal (R59, R94)
and the entry to HALTED (R127). -/

namespace Sys2Proof.Machine

/-! ### The hold reason set -/

/-- Whether a reason is in the set. -/
def HoldReasons.has (r : HoldReasons) : HoldReason → Bool
  | .margin => r.margin
  | .noFoothold => r.noFoothold
  | .poseStale => r.poseStale
  | .slip => r.slip
  | .rebase => r.rebase
  | .trip => r.trip
  | .pause => r.pause

/-- Adds or removes a reason; adding a present one or removing an absent one changes nothing (R114). -/
def HoldReasons.put (r : HoldReasons) (x : HoldReason) (b : Bool) : HoldReasons :=
  match x with
  | .margin => { r with margin := b }
  | .noFoothold => { r with noFoothold := b }
  | .poseStale => { r with poseStale := b }
  | .slip => { r with slip := b }
  | .rebase => { r with rebase := b }
  | .trip => { r with trip := b }
  | .pause => { r with pause := b }

/-- What remains of the set on leaving walking and on entry to OFF: SLIP, REBASE and TRIP (R119, R128). -/
def HoldReasons.withoutWalk (r : HoldReasons) : HoldReasons :=
  { r with margin := false, noFoothold := false, poseStale := false, pause := false }

/-- The hold reason set with a reason put in or out, the gait state left as it stands. -/
def State.putReason (s : State) (x : HoldReason) (b : Bool) : State :=
  s.setSeq { s.seq with reasons := s.seq.reasons.put x b }

/-- The gait state follows the set while walking is selected: the entry to HOLDING pends the GAIT node with the set, the
return to WALKING pends nothing (R115). -/
def State.settleGait (s : State) : State :=
  match s.seq.gait with
  | .walking =>
    if s.seq.reasons = .empty then s
    else (s.setSeq { s.seq with gait := .holding }).pend nodeGait (.gaitHolding s.seq.reasons)
  | .holding => if s.seq.reasons = .empty then s.setSeq { s.seq with gait := .walking } else s
  | .off | .standing | .stopping | .halted => s

/-- A reason added by an event, the gait following at once (R115, R118). -/
def State.addReason (s : State) (x : HoldReason) : State := (s.putReason x true).settleGait

/-- A change of gait state to STANDING, STOPPING or HALTED; from WALKING or HOLDING it leaves walking (R119). -/
def State.leaveTo (s : State) (g : Gait) : State :=
  s.setSeq
    { s.seq with
      gait := g
      reasons := if s.walkingSelected then s.seq.reasons.withoutWalk else s.seq.reasons }

/-! ### Lift withdrawal -/

/-- The target handed back: RESERVED at the front of the leg's queue; a fourth entry at the back returns to CANDIDATE
(R59). -/
def State.handBackTarget (s : State) (l : Leg) (h : Handle) : State :=
  let back := s.modRecord h.index (FootRecord.handBack s.seq.stride l)
  let q := h :: back.queue l
  match q[3]? with
  | none => back.setQueue l q
  | some last => (back.setQueue l (q.take 3)).modRecord last.index (FootRecord.unreserve s.seq.stride l)

/-- The leg goes back from UNLOADING to STANCE with HOLD asked for: target none, bounce count 0, step flag clear, swing
timer stopped (R94). -/
def State.backToStance (s : State) (l : Leg) : State :=
  (s.setLeg l
    { s.leg l with
      phase := .stance
      target := none
      bounce := 0
      stepFlag := false
      swingTimer := .stopped }).sendPlain l .hold

/-- A lift withdrawal asked for by the sequencer: taken in UNLOADING, nothing in any other phase (R94). -/
def State.withdrawLift (s : State) (l : Leg) : State :=
  if (s.leg l).phase = .unloading then
    match (s.leg l).target with
    | some h => (s.handBackTarget l h).backToStance l
    | none => s.backToStance l
  else s

/-- A withdrawal would push a queue's back entry out to CANDIDATE (R59): the store then recounts (R150). -/
def State.withdrawalOverflows (s : State) : Bool :=
  Leg.all.any fun l => (s.leg l).phase == .unloading && (s.leg l).target.isSome && 3 ≤ (s.queue l).length

/-! ### Entry to HALTED -/

/-- The gait states in which a halt cause applies (R127). -/
def HaltCause.applies (c : HaltCause) (g : Gait) : Bool :=
  match c with
  | .tip =>
    match g with
    | .standing | .walking | .holding | .stopping => true
    | .off | .halted => false
  | .supportLost | .legLost =>
    match g with
    | .off => false
    | .standing | .walking | .holding | .stopping | .halted => true
  | .client | .slipLimit | .swingTimeout | .check | .trip => true

/-- BRACE asked for a leg that is in STANCE (R127). -/
def State.braceStance (s : State) (l : Leg) : State :=
  if (s.leg l).phase = .stance then s.sendPlain l .brace else s

/-- A halt cause taken at the sequencer, without the recount that an overflow calls for. In HALTED the first halt reason
stands and no entry effect is repeated; where the cause does not apply it has no gait effect. Entry to HALTED sets the
halt reason, leaves walking, withdraws the lift of a leg in UNLOADING, braces every leg in STANCE, pends the GAIT node and
ends the tip condition (R127, R145); on leaving OFF every leg in SEEKING asks for a take (R105), by the legs' numbers, an
order that the spec does not give (DESIGN CHOICE, unsafe, log 24). The queue changes of the
withdrawals are reported to a sequencer that is HALTED and to legs in STANCE, which take no effect from them (R48). -/
def State.haltEntry (s : State) (c : HaltCause) : State :=
  if s.seq.gait = .halted ∨ c.applies s.seq.gait = false then s
  else
    let entered := s.leaveTo .halted
    let named := entered.setSeq { entered.seq with haltReason := some c }
    let withdrawn := Leg.all.foldl State.withdrawLift named
    let braced := Leg.all.foldl State.braceStance withdrawn
    let ended : State := { braced with attn := { braced.attn with tipHolds := false } }
    let noted := ended.pend nodeGait (.gaitHalted c)
    if s.seq.gait = .off then Leg.all.foldl State.seek noted else noted

end Sys2Proof.Machine
end

