-- ==== Sys2Proof/Machine/TripUnit.lean ====
section
/-! DEFINITION. Deliveries to the watch terms (R150, R151), the tests and the firing of trips (R154 to R156), and a halt
cause with all it brings about. -/

namespace Sys2Proof.Machine

/-! ### Source copies and terms -/

/-- The sources whose value is held for each leg (R150). -/
def Source.perLeg : Source → Bool
  | .normalLoad | .tangentialRatio | .overtemp | .slipCount => true
  | .currentMargin | .liftMargin | .pitch | .roll | .candidateCount => false

/-- The copy of a source, of a leg for a per-leg source (R150). -/
def SourceCopies.read (c : SourceCopies) (src : Source) (l : Leg) : Int :=
  match src with
  | .currentMargin => c.currentMargin
  | .liftMargin => c.liftMargin
  | .normalLoad => c.normalLoad.get l
  | .tangentialRatio => c.tangentialRatio.get l
  | .pitch => c.pitch
  | .roll => c.roll
  | .overtemp => c.overtemp.get l
  | .candidateCount => c.candidateCount
  | .slipCount => c.slipCount.get l

/-- A delivery replaces the copy (R150). -/
def SourceCopies.write (c : SourceCopies) (src : Source) (l : Leg) (v : Int) : SourceCopies :=
  match src with
  | .currentMargin => { c with currentMargin := v }
  | .liftMargin => { c with liftMargin := v }
  | .normalLoad => { c with normalLoad := c.normalLoad.set l v }
  | .tangentialRatio => { c with tangentialRatio := c.tangentialRatio.set l v }
  | .pitch => { c with pitch := v }
  | .roll => { c with roll := v }
  | .overtemp => { c with overtemp := c.overtemp.set l v }
  | .candidateCount => { c with candidateCount := v }
  | .slipCount => { c with slipCount := c.slipCount.set l v }

/-- The truth an enabled term takes from a value; a disabled term is false (R149, R151). -/
def WatchTerm.eval (t : WatchTerm) (v : Int) : Bool :=
  t.enabled &&
    match t.relation with
    | .below => v < t.threshold.toInt
    | .atOrAbove => t.threshold.toInt ≤ v

/-- The term watches the source, and the leg for a per-leg source (R151). -/
def WatchTerm.watches (t : WatchTerm) (src : Source) (l : Leg) : Bool :=
  t.source == src && (!src.perLeg || t.leg == l)

/-- A term after a delivery (R151). -/
def WatchTerm.deliver (src : Source) (l : Leg) (v : Int) (t : WatchTerm) : WatchTerm :=
  if t.watches src l then { t with truth := t.eval v } else t

/-- The terms whose truth differs between two term lists: term n at bit n (R151). -/
def changedTerms (before after : Vector WatchTerm 8) : BitVec 8 :=
  let c (n : Fin 8) : BitVec 1 := BitVec.ofBool (before[n].truth != after[n].truth)
  c 7 ++ c 6 ++ c 5 ++ c 4 ++ c 3 ++ c 2 ++ c 1 ++ c 0

/-- The terms that are true: term n at bit n. -/
def truthBits (terms : Vector WatchTerm 8) : BitVec 8 :=
  let c (n : Fin 8) : BitVec 1 := BitVec.ofBool terms[n].truth
  c 7 ++ c 6 ++ c 5 ++ c 4 ++ c 3 ++ c 2 ++ c 1 ++ c 0

/-! ### Trips -/

/-- A trip's state. -/
def State.trip (s : State) (n : Fin 4) : Trip := s.trips.trips[n]

/-- Replaces a trip. -/
def State.setTrip (s : State) (n : Fin 4) (t : Trip) : State :=
  s.setTrips { s.trips with trips := s.trips.trips.set n t }

/-- The combination of an ALL or ANY trip for the terms that are true; an empty mask gives a false one (R153). -/
def Trip.combination (t : Trip) (truths : BitVec 8) : Bool :=
  match t.mode with
  | .all => t.mask != 0 && (t.mask &&& truths) == t.mask
  | .any => (t.mask &&& truths) != 0
  | .sequence => false

/-- What a test makes of a trip, before any action (R154, R155): the trip and whether it fires. changed are the terms
whose truth changed, truths the terms that are true now. -/
def Trip.test (t : Trip) (changed truths : BitVec 8) : Trip × Bool :=
  match t.mode with
  | .all | .any =>
    (t, t.state == .armed && (t.mask &&& changed) != 0 && t.combination truths)
  | .sequence =>
    let became (n : Fin 8) : Bool := changed.getLsbD n && truths.getLsbD n
    match t.state with
    | .armed =>
      if became t.first then
        ({ t with state := .primed, timer := .running t.window }, truths.getLsbD t.second)
      else (t, false)
    | .primed => (t, became t.second)
    | .disarmed | .fired => (t, false)

/-- A trip fires: FIRED with its window timer stopped, the TRIP node, and the action (R156). Within a lift readiness
evaluation the gait state follows the set only at the evaluation's end (R121, R156). -/
def State.fireTrip (inEvaluation : Bool) (s : State) (n : Fin 4) : State :=
  let t := s.trip n
  let fired := (s.setTrip n { t with state := .fired, timer := .stopped }).pend nodeTrip (.trip n)
  match t.action with
  | .attention => fired
  | .hold => if inEvaluation then fired.putReason .trip true else fired.addReason .trip
  | .halt => fired.haltEntry .trip

/-- The test of one trip (R151, R154, R155). -/
def State.testTrip (inEvaluation : Bool) (changed truths : BitVec 8) (s : State) (n : Fin 4) : State :=
  let r := (s.trip n).test changed truths
  let tested := s.setTrip n r.1
  if r.2 then tested.fireTrip inEvaluation n else tested

/-- The tests of the trips, in the order of their numbers (R151). -/
def State.testTrips (s : State) (inEvaluation : Bool) (changed truths : BitVec 8) : State :=
  [(0 : Fin 4), 1, 2, 3].foldl (State.testTrip inEvaluation changed truths) s

/-- One delivery: the copy, the terms that watch it, then the trips (R150, R151), without the recount that an overflow at
a HALT firing calls for. -/
def State.deliverOnly (s : State) (inEvaluation : Bool) (src : Source) (l : Leg) (v : Int) : State :=
  let terms := s.trips.terms.map (WatchTerm.deliver src l v)
  let evaluated := s.setTrips { s.trips with copies := s.trips.copies.write src l v, terms := terms }
  evaluated.testTrips inEvaluation (changedTerms s.trips.terms terms) (truthBits terms)

/-- A delivery of CANDIDATE_COUNT in a gait that has entered HALTED in this event: the store's recount for the record
that a withdrawal pushed out (R59, R150). A HALT action finds the gait HALTED. The spec does not say when within the event
this recount is delivered; the model delivers it at once with the halt, before the event's later deliveries (DESIGN CHOICE,
unsafe, log 25). -/
def State.recountOverflow (before after : State) : State :=
  if before.seq.gait ≠ .halted ∧ after.seq.gait = .halted ∧ before.withdrawalOverflows then
    after.deliverOnly false .candidateCount .lf after.candidateCount
  else after

/-- A delivery taken whole (R150, R151). -/
def State.deliver (s : State) (inEvaluation : Bool) (src : Source) (l : Leg) (v : Int) : State :=
  s.recountOverflow (s.deliverOnly inEvaluation src l v)

/-- The store's recount of CANDIDATE_COUNT and its delivery (R150). -/
def State.recount (s : State) : State := s.deliver false .candidateCount .lf s.candidateCount

/-- A halt cause taken whole (R127). The recount for a record pushed out of a queue at the entry is delivered here, before
any later delivery of the event (DESIGN CHOICE, unsafe, log 25). -/
def State.haltCause (s : State) (c : HaltCause) : State := s.recountOverflow (s.haltEntry c)

end Sys2Proof.Machine
end

