-- ==== Sys2Proof/Machine/Monitor.lean ====
section
/-! DEFINITION. The support set (R137), its verification (R138), the current margin with the tip condition (R142, R145)
and the lift margin (R144). -/

namespace Sys2Proof.Machine

/-- The leg's member of the support set: the LOADED record of a leg in STANCE or UNLOADING whose check-failed flag is
clear (R137). -/
def State.supportOf (s : State) (l : Leg) : Option (RecordIndex × FootRecord) :=
  if (s.leg l).phase = .stance ∨ (s.leg l).phase = .unloading then
    match (s.leg l).stance with
    | none => none
    | some h =>
      match s.slot h.index with
      | none => none
      | some r => if r.state = .loaded l false then some (h.index, r) else none
  else none

/-- The verification of one leg's member of the set a computation uses. A check failure is taken with its LOADED outcome,
the halt cause CHECK included, and then the computation goes on (R138). The flag tells whether any member failed. -/
def verifyMember (skip : Option Leg) (acc : State × Bool) (l : Leg) : State × Bool :=
  if skip = some l then acc
  else
    match acc.1.supportOf l with
    | none => acc
    | some (i, r) =>
      if verifies r.content (acc.1.gen i) then acc else ((acc.1.flagFailed i).haltCause .check, true)

/-- The verification of the members of a set, in the order of their legs' numbers (R138). -/
def State.verifySupport (s : State) (skip : Option Leg) : State × Bool :=
  Leg.all.foldl (verifyMember skip) (s, false)

/-- The points of the support set in the order of the legs' numbers, one leg left out (R137, R144). -/
def State.supportPoints (s : State) (skip : Option Leg) : List Point :=
  Leg.all.filterMap fun l =>
    if skip = some l then none
    else (s.supportOf l).map fun ir => ⟨ir.2.content.x.toInt, ir.2.content.y.toInt⟩

/-- The legs whose stance records are in the support set (R133). -/
def State.supportLegs (s : State) : PerLeg Bool :=
  ⟨(s.supportOf .lf).isSome, (s.supportOf .rf).isSome, (s.supportOf .lh).isSome, (s.supportOf .rh).isSome⟩

/-- The CoM point of the held pose; none where no pose is held (R139). -/
def Balance.comPoint (b : Balance) : Option Point :=
  if b.freshness = .none then none else some ⟨b.pose.x.toInt, b.pose.y.toInt⟩

/-- The sticky flags after a computation with this result (R139, R141). -/
def Balance.noteMargin (b : Balance) (m : Margin) : Balance :=
  { b with
    sat := b.sat || m.cls == .saturated
    degen := b.degen || m.cls == .degen }

/-- The margin over the support set of a state, one leg left out (R139 to R141). -/
def State.marginWithout (s : State) (skip : Option Leg) : Margin :=
  marginOf s.bal.comPoint (s.supportPoints skip)

/-- The current margin is below the tip margin (parameter 1) in force or is DEGEN (R125, R130, R145). -/
def State.marginUnsafe (s : State) : Bool :=
  s.bal.current.value.toInt < s.param 1 || s.bal.current.cls == .degen

/-- The tip condition's test: when it holds, the attention unit is told, the TIP node takes the margin as its cause, the
halt cause TIP is taken, and the entry to HALTED ends the condition (R145, R163). The test is made at computations alone
(DEDUCED, safe, log 22). -/
def State.testTip (s : State) : State :=
  if HaltCause.tip.applies s.seq.gait && s.marginUnsafe then
    let told : State := { s with attn := { s.attn with tipHolds := true } }
    (told.pend nodeTip (.tip s.bal.current)).haltCause .tip
  else s

/-- The result recorded as the current margin, with its classification and support legs (R142). -/
def State.recordCurrent (s : State) : State :=
  let m := s.marginWithout none
  s.setBal { s.bal.noteMargin m with current := m, currentLegs := s.supportLegs }

/-- The current margin computed: the members verified, the margin recorded, the tip condition tested, the CURRENT_MARGIN
terms served (R142). While a rebase walk is in flight nothing is computed. -/
def State.computeCurrent (s : State) : State :=
  if s.rebasing then s
  else
    let recorded := (s.verifySupport none).1.recordCurrent
    let tested := recorded.testTip
    tested.deliver false .currentMargin .lf recorded.bal.current.value.toInt

/-- The result recorded as the last lift margin, with the leg it left out (R144). -/
def State.recordLift (s : State) (l : Leg) : State :=
  let m := s.marginWithout (some l)
  s.setBal { s.bal.noteMargin m with lift := m, liftLeg := some l }

/-- The lift margin computed for the next leg within an evaluation: the other members verified, the margin recorded, the
LIFT_MARGIN terms served; where a member failed its check, the current margin is then computed (R143, R144). -/
def State.computeLift (s : State) (l : Leg) : State :=
  let verified := s.verifySupport (some l)
  let recorded := verified.1.recordLift l
  let served := recorded.deliver true .liftMargin .lf recorded.bal.lift.value.toInt
  if verified.2 then served.computeCurrent else served

/-- A check failure of a stance record found outside a margin computation: the flag, the halt cause CHECK, then the
current margin without the record (R143). -/
def State.failLoaded (s : State) (i : RecordIndex) : State :=
  ((s.flagFailed i).haltCause .check).computeCurrent

end Sys2Proof.Machine
end

