-- ==== Sys2Proof/Machine/Gait.lean ====
section
/-! DEFINITION. Lift readiness (R120, R121), the removal of hold reasons (R118), the reports of queue changes (R48) and
what the phase machines tell the sequencer (R117, R122). -/

namespace Sys2Proof.Machine

/-! ### Lift readiness -/

/-- Step 1 of an evaluation stops it: a leg in flight, a lift pending, or the next leg not in STANCE (R121). -/
def State.stepOneStops (s : State) : Bool :=
  s.anyInFlight || s.seq.liftPending.isSome || (s.leg s.seq.pointer).phase != .stance

/-- The three reasons that answer "may the next leg lift now?" put in or out together (R121). -/
def State.putThree (s : State) (margin noFoothold poseStale : Bool) : State :=
  s.setSeq
    { s.seq with
      reasons := { s.seq.reasons with margin := margin, noFoothold := noFoothold, poseStale := poseStale } }

/-- Step 2's effect: a front found failing its check becomes FREE and leaves the queue (R121, R20). -/
def State.afterFront (s : State) (l : Leg) : State :=
  match s.frontTest l with
  | .failed h => s.failReserved l h.index
  | .empty | .inadmissible | .usable _ => s

/-- The front passes all three tests of R21 (R121 step 2). -/
def FrontTest.isUsable : FrontTest → Bool
  | .usable _ => true
  | .empty | .inadmissible | .failed _ => false

/-- A check failure was found on the front (R121 step 2). -/
def FrontTest.isFailed : FrontTest → Bool
  | .failed _ => true
  | .empty | .inadmissible | .usable _ => false

/-- The last lift margin is below the lift margin (parameter 0) in force or is DEGEN (R121 step 4, R144). -/
def State.liftUnsafe (s : State) : Bool :=
  s.bal.lift.value.toInt < s.param 0 || s.bal.lift.cls == .degen

/-- The end of an evaluation that passed step 1: the three reasons take effect together, the gait state follows the set
once, and with the set empty the next leg is asked to lift (R121 steps 2 to 5). -/
def State.closeEvaluation (s : State) (l : Leg) (usable stale : Bool) : State :=
  let settled := (s.putThree s.liftUnsafe (!usable) stale).settleGait
  if settled.seq.reasons = .empty then settled.setSeq { settled.seq with liftPending := some l } else settled

/-- An evaluation that passed step 1. Where a check failure or a HALT trip in step 4 has overtaken it, it makes no change
to the set and asks no lift (R144, R156). -/
def State.evaluateFrom (s : State) (l : Leg) : State :=
  let computed := (s.afterFront l).computeLift l
  if computed.walkingSelected then
    computed.closeEvaluation l (s.frontTest l).isUsable (s.bal.freshness != .fresh)
  else computed

/-- One lift readiness evaluation, if one is made: walking is selected and REBASE is not in the set (R120, R121). -/
def State.evaluateOnce (s : State) : State :=
  if s.walkingSelected && !s.seq.reasons.rebase then
    if s.stepOneStops then (s.putThree false false false).settleGait else s.evaluateFrom s.seq.pointer
  else s

/-- The evaluation finds a check failure on the next leg's front (R121 step 2). -/
def State.evaluationFailsFront (s : State) : Bool :=
  s.walkingSelected && !s.seq.reasons.rebase && !s.stepOneStops && (s.frontTest s.seq.pointer).isFailed

/-- Evaluations until one finds no check failure on the front: the queue change that such a failure makes is reported
after the evaluation has ended and starts a further one (R121 step 2). Each failure shortens the queue, so its length
bounds the evaluations. -/
def evaluations : Nat → State → State
  | 0, s => s
  | n + 1, s => if s.evaluationFailsFront then evaluations n s.evaluateOnce else s.evaluateOnce

/-- Lift readiness evaluated (R120, R121). -/
def State.evaluate (s : State) : State := evaluations ((s.queue s.seq.pointer).length + 1) s

/-! ### Removal of hold reasons -/

/-- A reason removed by an event other than an evaluation: the gait state follows, and while walking is selected the
removal evaluates lift readiness (R115, R118, R120). Removing an absent reason changes nothing (R114). -/
def State.removeReason (s : State) (x : HoldReason) : State :=
  if s.seq.reasons.has x then
    let removed := (s.putReason x false).settleGait
    if removed.walkingSelected then removed.evaluate else removed
  else s

/-- The notice that a leg's slip has re-armed: SLIP is removed when no leg's slip-latched flag remains set (R103,
R118). -/
def State.slipRearmTold (s : State) : State :=
  if Leg.all.any fun l => (s.leg l).slipLatched then s else s.removeReason .slip

/-! ### Reports of queue changes -/

/-- The report of a queue change to the sequencer: it evaluates when the queue is the next leg's (R48, R120). -/
def State.reportToSequencer (s : State) (l : Leg) : State :=
  if s.walkingSelected && s.seq.pointer == l then s.evaluate else s

/-- The take of a SEEKING leg with the report of the queue change it makes to the sequencer (R48, R57, R105). The leg's own
part of the report takes no effect in SWING, and after CHECK it comes in an event of its own (State.failFront). -/
def State.seekAndReport (s : State) (l : Leg) : State :=
  let sought := s.seek l
  if sought.queue l = s.queue l then sought else sought.reportToSequencer l

/-- The report of a queue change to the leg's phase machine: in SEEKING, a new or amended front asks for a take; in OFF a
new front asks for HOLD (R48, R105). -/
def State.reportToLeg (s : State) (l : Leg) (newFront amended : Bool) : State :=
  if (s.leg l).phase = .seeking then
    if s.seq.gait = .off then if newFront then s.sendPlain l .hold else s
    else if newFront || amended then s.seekAndReport l
    else s
  else s

/-- The report of a queue change, to the sequencer and to the leg's phase machine (R48). before is the queue as it
stood. -/
def State.reportQueue (s : State) (l : Leg) (before : List Handle) (amended : Bool) : State :=
  (s.reportToSequencer l).reportToLeg l (hasNewFront before (s.queue l)) amended

/-- The report of a new front that a take answered CHECK has left comes to its leg in this event: the leg asks for a take as
on any report of a new front (R48, R57, R105). The sequencer has had its part in the event of the change. -/
def State.hearNewFront (s : State) (l : Leg) : State :=
  let heard := s.setNewFront l false
  if s.queue l = [] then heard else heard.reportToLeg l true false

/-! ### What the phase machines tell the sequencer -/

/-- STOPPING ends in STANDING with no leg in flight and no lift pending, pending the GAIT node (R117, R122). -/
def State.endStopping (s : State) : State :=
  if s.seq.gait = .stopping ∧ s.anyInFlight = false ∧ s.seq.liftPending = none then
    (s.leaveTo .standing).pend nodeGait .gaitStanding
  else s

/-- Lift readiness where walking is still selected (R117, R120). -/
def State.evaluateIfWalking (s : State) : State := if s.walkingSelected then s.evaluate else s

/-- The leg that follows another in a pattern (6.3). -/
def Pattern.next : Pattern → Leg → Leg
  | .forward, .lh => .lf
  | .forward, .lf => .rh
  | .forward, .rh => .rf
  | .forward, .rf => .lh
  | .backward, .rf => .rh
  | .backward, .rh => .lf
  | .backward, .lf => .lh
  | .backward, .lh => .rf

/-- A pattern's first leg (6.3). -/
def Pattern.first : Pattern → Leg
  | .forward => .lh
  | .backward => .rf

/-- A pattern's last leg (6.3). -/
def Pattern.last : Pattern → Leg
  | .forward => .rf
  | .backward => .lh

/-- The stride counter adds one, from 4095 back to 0, and an expiry sweep starts at index 0, ending any sweep in flight
(R117, R36, R37). -/
def State.nextStride (s : State) : State :=
  (s.setSeq { s.seq with stride := s.seq.stride + 1 }).setStore { s.store with sweep := some 0 }

/-- The order pointer and the stride counter after a confirmation told with the step flag set (R117). -/
def State.advanceOrder (s : State) (l : Leg) : State :=
  let pointed := s.setSeq { s.seq with pointer := s.seq.pattern.next l }
  if l = s.seq.pattern.last then pointed.nextStride else pointed

/-- A stance confirmation told to the sequencer, with the step flag as it stood (R117). -/
def State.confirmationTold (s : State) (l : Leg) (stepFlag : Bool) : State :=
  let advanced := if stepFlag then s.advanceOrder l else s
  advanced.endStopping.evaluateIfWalking

/-- A lift withdrawal made for a check failure of the target, told to the sequencer (R108, R120, R122). -/
def State.withdrawalTold (s : State) : State := s.endStopping.evaluateIfWalking

end Sys2Proof.Machine
end

