-- ==== Sys2Proof/Machine/LegEvents.lean ====
section
/-! DEFINITION. The events of the leg phase machines (chapter 5). In each, the leg's phase and its records change first;
the other units are then told in the order in which the rule lists them; deliveries of SLIP_COUNT and CANDIDATE_COUNT
come last (DESIGN CHOICE where no rule orders them, unsafe, log 6). -/

namespace Sys2Proof.Machine

/-! ### Shared parts -/

/-- The owner phase machine delivers its leg's SLIP_COUNT (R150). -/
def State.deliverSlipCount (s : State) (l : Leg) (v : Nat) : State := s.deliver false .slipCount l v

/-- The slip count of the record at an index; 0 where the slot is FREE (R150). -/
def State.slipsAt (s : State) (i : RecordIndex) : Nat :=
  match s.slot i with
  | some r => r.content.slips.toNat
  | none => 0

/-- A leg that has just entered SEEKING asks for a take in the same event, after its RETRACT (R105). -/
def State.seekAfterEntry (s : State) (l : Leg) : State := s.seekAndReport l

/-- The stance record is a member of the support set, so that its departure changes the set (R137). -/
def State.supports (s : State) (l : Leg) : Bool := (s.supportOf l).isSome

/-- The current margin computed when the support set has changed (R137, R142). -/
def State.supportChanged (s : State) (changed : Bool) : State := if changed then s.computeCurrent else s

/-- The store recounts when a record has entered or left CANDIDATE (R150). -/
def State.recountIf (s : State) (changed : Bool) : State := if changed then s.recount else s

/-- The record at an index is CANDIDATE. -/
def State.isCandidate (s : State) (i : RecordIndex) : Bool :=
  match s.slot i with
  | some r => r.state == .candidate
  | none => false

/-! ### Coming onto the link, arrival, touchdown (R90, R95, R96, R106) -/

/-- A link UP handed by the port: in UNSEEN or LOST with no joint fault present, IDLE with HOLD asked for and the LEG node
pended RETURNED (R90). -/
def State.linkUpHanded (s : State) (l : Leg) : State :=
  if ((s.leg l).phase = .unseen ∨ (s.leg l).phase = .lost) ∧ (s.port l).jointFault = false then
    ((s.setLeg l { s.leg l with phase := .idle }).sendPlain l .hold).pend nodeLeg (.leg l .returned .none)
  else s

/-- An arrival handed by the port: SWING to DESCENT with the descent timer started; ignored elsewhere (R95). -/
def State.arrivalHanded (s : State) (l : Leg) : State :=
  if (s.leg l).phase = .swing then
    s.setLeg l { s.leg l with phase := .descent, descentTimer := s.timerFor 5 }
  else s

/-- A touchdown edge handed by the port: DESCENT to TOUCHDOWN, or a late contact in SEEKING; ignored elsewhere (R96,
R106). -/
def State.touchdownHanded (s : State) (l : Leg) : State :=
  match (s.leg l).phase with
  | .descent =>
    s.setLeg l { s.leg l with phase := .touchdown, descentTimer := .stopped, settleTimer := s.timerFor 4 }
  | .seeking => s.pend nodeLeg (.leg l .lateContact .none)
  | .unseen | .idle | .stance | .unloading | .swing | .touchdown | .lost => s

/-! ### Liftoff (R93, R99, R104) -/

/-- The vacate of a record: CANDIDATE with the bonus, SUSPECT, or FREE with reason CHECK (R11, R13, R38). -/
def State.vacate (s : State) (i : RecordIndex) : State :=
  match s.slot i with
  | none => s
  | some r =>
    match r.state with
    | .loaded _ true => s.freeRecord i .check
    | .loaded _ false =>
      if r.content.slips = 0 then
        s.setSlot i (some (r.vacateClean s.seq.stride (s.paramNat 17) (s.gen i)))
      else s.setSlot i (some (r.suspectLoaded s.seq.stride))
    | .candidate | .reserved _ | .target _ | .suspect => s

/-- The leg leaves its stance record for SWING (R93 steps 1 and 2). -/
def State.leaveStance (s : State) (l : Leg) : State :=
  let vacated := match (s.leg l).stance with
    | some h => s.vacate h.index
    | none => s
  vacated.setLeg l { vacated.leg l with stance := none, phase := .swing }

/-- The record that a leg stands on is CANDIDATE after the vacate. -/
def State.stanceBecame (s after : State) (l : Leg) : Bool :=
  match (s.leg l).stance with
  | some h => !s.isCandidate h.index && after.isCandidate h.index
  | none => false

/-- A liftoff edge in UNLOADING: the vacate, the entry to SWING, the current margin over the changed support, the PLACE
order, and the take of a leg whose target failed there (R93, R105). -/
def State.liftoffUnloading (s : State) (l : Leg) : State :=
  let left := s.leaveStance l
  let placed := (left.supportChanged (s.supports l)).composePlace l
  let settled := if (placed.leg l).phase = .seeking then placed.seekAfterEntry l else placed
  (settled.deliverSlipCount l 0).recountIf (s.stanceBecame left l)

/-- A liftoff edge in TOUCHDOWN: a bounce back to DESCENT below the bounce limit, else a MISS with reason BOUNCE (R99). -/
def State.liftoffTouchdown (s : State) (l : Leg) : State :=
  let v := s.leg l
  if v.bounce < s.paramNat 16 then
    s.setLeg l
      { v with phase := .descent, bounce := v.bounce + 1, settleTimer := .stopped, descentTimer := s.timerFor 5 }
  else
    match v.target with
    | none => s
    | some h =>
      let suspected := s.modRecord h.index (FootRecord.suspectTarget s.seq.stride l)
      ((suspected.enterSeeking l).pend nodeMiss (.miss l true h)).seekAfterEntry l

/-- The stance record of an unexpected unload: SUSPECT with one slip charged, or FREE with reason CHECK where its
check-failed flag is set (R12, R13). -/
def State.unloadRecord (s : State) (i : RecordIndex) : State :=
  match s.slot i with
  | none => s
  | some r =>
    match r.state with
    | .loaded _ true => s.freeRecord i .check
    | .loaded _ false => s.setSlot i (some ((s.chargeSlip i r).suspectLoaded s.seq.stride))
    | .candidate | .reserved _ | .target _ | .suspect => s

/-- The leg of an unexpected unload after its record's part: no stance record, SEEKING with RETRACT, step flag clear, the
LEG node pended (R104). -/
def State.unloadLeg (s : State) (l : Leg) : State :=
  let freed := s.setLeg l { s.leg l with stance := none, stepFlag := false }
  (freed.enterSeeking l).pend nodeLeg (.leg l .unexpectedUnload .none)

/-- A liftoff edge in STANCE: an unexpected unload. The sequencer is told to enter HALTED before the monitor is told of
the change of support; the take follows (R104, R105). In OFF, where SUPPORT_LOST has no effect and the margin's own halt
leaves OFF, the leg asks at that halt and again here; after a first CHECK the second take tests the new front in this same
event, which the spec leaves open (R57, R105; DESIGN CHOICE, unsafe, log 27). -/
def State.liftoffStance (s : State) (l : Leg) : State :=
  let unloaded := match (s.leg l).stance with
    | some h => s.unloadRecord h.index
    | none => s
  let halted := (unloaded.unloadLeg l).haltCause .supportLost
  ((halted.supportChanged (s.supports l)).seekAfterEntry l).deliverSlipCount l 0

/-- A liftoff edge handed by the port; ignored outside UNLOADING, TOUCHDOWN and STANCE (R80). -/
def State.liftoffHanded (s : State) (l : Leg) : State :=
  match (s.leg l).phase with
  | .unloading => s.liftoffUnloading l
  | .touchdown => s.liftoffTouchdown l
  | .stance => s.liftoffStance l
  | .unseen | .idle | .swing | .seeking | .descent | .lost => s

/-! ### Slip (R100, R102, R103) -/

/-- One slip charged to the stance record of a leg (R3, R102). -/
def State.chargeStance (s : State) (l : Leg) (i : RecordIndex) : State :=
  s.modRecord i fun r =>
    match r.state with
    | .loaded o _ => if o = l then s.chargeSlip i r else r
    | .candidate | .reserved _ | .target _ | .suspect => r

/-- One slip charged to the target of a leg, which becomes SUSPECT (R10, R100). -/
def State.chargeTarget (s : State) (l : Leg) (i : RecordIndex) : State :=
  s.modRecord i fun r =>
    if r.state = .target l then (s.chargeSlip i r).suspectTarget s.seq.stride l else r

/-- A slip in STANCE: the charge, BRACE, the SLIP node, the slip-latched flag and the reason SLIP, the halt at the slip
limit (R102). -/
def State.slipInStance (s : State) (l : Leg) : State :=
  match (s.leg l).stance with
  | none => s
  | some h =>
    let charged := s.chargeStance l h.index
    let noted := (charged.sendPlain l .brace).pend nodeSlip (.slip l false h)
    let held := (noted.setLeg l { noted.leg l with slipLatched := true }).addReason .slip
    let count := charged.slipsAt h.index
    let halted := if s.paramNat 15 ≤ count then held.haltCause .slipLimit else held
    halted.deliverSlipCount l count

/-- A slip in TOUCHDOWN: the target is charged and becomes SUSPECT, the leg enters SEEKING with RETRACT, the SLIP node
pends, and the leg asks for a take (R100, R105). -/
def State.slipInTouchdown (s : State) (l : Leg) : State :=
  match (s.leg l).target with
  | none => s
  | some h =>
    (((s.chargeTarget l h.index).enterSeeking l).pend nodeSlip (.slip l true h)).seekAfterEntry l

/-- A slip event handed by the port (R83). -/
def State.slipHanded (s : State) (l : Leg) : State :=
  match (s.leg l).phase with
  | .stance => s.slipInStance l
  | .touchdown => s.slipInTouchdown l
  | .unseen | .idle | .unloading | .swing | .seeking | .descent | .lost => s

/-- A slip re-arm handed by the port: the slip-latched flag clears and the sequencer is told (R103). -/
def State.slipRearmHanded (s : State) (l : Leg) : State :=
  (s.setLeg l { s.leg l with slipLatched := false }).slipRearmTold

/-! ### Miss by descent timeout, confirmation (R97, R98) -/

/-- The target of a leg becomes FREE with reason VOID (R10). -/
def State.freeTarget (s : State) (l : Leg) (i : RecordIndex) : State :=
  match s.slot i with
  | none => s
  | some r => if r.state = .target l then s.freeRecord i .void else s

/-- A MISS with reason VOID: the target is freed, the leg enters SEEKING with RETRACT, the MISS node pends, and the leg
asks for a take (R97, R105). -/
def State.missVoid (s : State) (l : Leg) : State :=
  match (s.leg l).target with
  | none => s
  | some h =>
    ((((s.freeTarget l h.index).enterSeeking l).pend nodeMiss (.miss l false h))).seekAfterEntry l

/-- Stance confirmation: the target becomes LOADED and the stance record, the leg enters STANCE with HOLD asked for, the
monitor is told, then the sequencer with the step flag as it stood (R98). -/
def State.confirmStance (s : State) (l : Leg) : State :=
  match (s.leg l).target with
  | none => s
  | some h =>
    let v := s.leg l
    let loaded := s.modRecord h.index (FootRecord.confirm s.seq.stride l)
    let stood := (loaded.setLeg l
      { v with
        phase := .stance
        stance := some h
        target := none
        bounce := 0
        stepFlag := false
        swingTimer := .stopped
        settleTimer := .stopped }).sendPlain l .hold
    let told := (stood.supportChanged true).confirmationTold l v.stepFlag
    told.deliverSlipCount l (stood.slipsAt h.index)

/-! ### Check failures that reach a leg (R108) -/

/-- A check failure of a target: it becomes FREE; in UNLOADING the lift is withdrawn with nothing handed back and the
sequencer is told; in SWING, DESCENT or TOUCHDOWN the leg enters SEEKING with RETRACT and asks for a take (R20, R108). -/
def State.failTarget (s : State) (l : Leg) (i : RecordIndex) : State :=
  let freed := s.freeFailed i
  match (s.leg l).phase with
  | .unloading => (freed.backToStance l).withdrawalTold
  | .swing | .descent | .touchdown => (freed.enterSeeking l).seekAfterEntry l
  | .unseen | .idle | .stance | .seeking | .lost => freed

/-- A check failure of a record, with the outcome for the state it is in and all its consequences (R20). A LOADED record
whose flag is set finds no new failure. -/
def State.failRecord (s : State) (i : RecordIndex) (r : FootRecord) : State :=
  match r.state with
  | .candidate => (s.freeFailed i).recount
  | .suspect => s.freeFailed i
  | .reserved o => (s.failReserved o i).reportQueue o (s.queue o) false
  | .target o => s.failTarget o i
  | .loaded _ false => s.failLoaded i
  | .loaded _ true => s

/-! ### Loss (R60, R109) -/

/-- The stance record of a lost leg: SUSPECT with its content kept, or FREE with reason CHECK where its check-failed flag
is set (R12, R13). -/
def State.loseStance (s : State) (i : RecordIndex) : State :=
  match s.slot i with
  | none => s
  | some r =>
    match r.state with
    | .loaded _ true => s.freeRecord i .check
    | .loaded _ false => s.setSlot i (some (r.suspectLoaded s.seq.stride))
    | .candidate | .reserved _ | .target _ | .suspect => s

/-- The lost leg's queue emptied to CANDIDATE, front first (R60). -/
def State.emptyQueue (s : State) (l : Leg) : State :=
  ((s.queue l).foldl (fun s h => s.modRecord h.index (FootRecord.unreserve s.seq.stride l)) s).setQueue l []

/-- The records of a lost leg: stance record, target, queue entries (R109 steps 1 to 3). -/
def State.loseRecords (s : State) (l : Leg) : State :=
  let stanced := match (s.leg l).stance with
    | some h => s.loseStance h.index
    | none => s
  let released := match (s.leg l).target with
    | some h => stanced.modRecord h.index (FootRecord.releaseTarget s.seq.stride l)
    | none => stanced
  released.emptyQueue l

/-- A lost leg holds nothing, its timers are stopped, and its phase is LOST (R109 steps 4 and 5). -/
def State.enterLost (s : State) (l : Leg) : State :=
  s.setLeg l
    { phase := .lost
      stance := none
      target := none
      bounce := 0
      slipLatched := false
      stepFlag := false
      swingTimer := .stopped
      descentTimer := .stopped
      settleTimer := .stopped }

/-- The loss of a leg in a linked phase; nothing in UNSEEN or LOST (R109). The units are told in the order of the rule's
steps: the monitor at step 1, the report of the queue change at step 3, the slip re-arm notice at step 4, the LEG node at
step 6, the sequencer at step 7 (DEDUCED from the numbering, unsafe, log 8). -/
def State.legLost (s : State) (l : Leg) : State :=
  if (s.leg l).phase.linked then
    let lost := (s.loseRecords l).enterLost l
    let watched := lost.supportChanged (s.supports l)
    let reported := if (s.queue l).isEmpty then watched else watched.reportToSequencer l
    let rearmed := reported.slipRearmTold
    let noted := rearmed.pend nodeLeg (.leg l .lost (s.port l).loss)
    let halted := noted.haltCause .legLost
    (halted.deliverSlipCount l 0).recountIf ((s.leg l).target.isSome || !(s.queue l).isEmpty)
  else s

end Sys2Proof.Machine
end

