-- ==== Sys2Proof/Machine/BalanceCommands.lean ====
section
/-! DEFINITION. The balance monitor's commands POSE and MARGIN and the pose timer's expiry (chapter 7). -/

namespace Sys2Proof.Machine

/-- A pitch or roll within −900 to +900 (R134). -/
def angleInRange (w : Word) : Bool := (-900 : Int) ≤ w.toInt && w.toInt ≤ 900

/-- Steps 1 and 2 of an accepted POSE: the values, FRESH, and the pose timer started afresh (R134). -/
def State.holdPose (s : State) (x y pitch roll : Word) : State :=
  s.setBal { s.bal with pose := ⟨x, y, pitch, roll⟩, freshness := .fresh, poseTimer := s.timerFor 7 }

/-- An accepted POSE: the pose held, the current margin, the PITCH and ROLL terms, then the sequencer told (R134). -/
def State.acceptPose (s : State) (x y pitch roll : Word) : State :=
  let computed := (s.holdPose x y pitch roll).computeCurrent
  ((computed.deliver false .pitch .lf pitch.toInt).deliver false .roll .lf roll.toInt).evaluateIfWalking

/-- POSE's effect (R134). -/
def takePose (x y pitch roll : Word) (c : Client) (s : State) : Effect :=
  permittedIdle notPerception c s <|
    if isLowest x || isLowest y || !angleInRange pitch || !angleInRange roll then refuse s .outOfRange
    else answer (s.acceptPose x y pitch roll) .done

/-- POSE, which may be broadcast. -/
def execPose (h : FrameHead) (x y pitch roll : Word) (s : State) : Host.Outcome State Fault Refusal :=
  frameEvent s h 18 [x, y, pitch, roll] (takePose x y pitch roll)

/-- MARGIN's effect (R147). -/
def takeMargin (c : Client) (s : State) : Effect :=
  permittedIdle anyClient c s (doneWith s (marginWords s.bal))

/-- MARGIN. -/
def execMargin (h : FrameHead) (s : State) : Host.Outcome State Fault Refusal :=
  frameEvent s h 19 [] takeMargin

/-- The expiry of the pose timer: STALE, the timer stopped, the sequencer told (R135). -/
def State.poseExpiry (s : State) : State :=
  (s.setBal { s.bal with freshness := .stale, poseTimer := .stopped }).evaluateIfWalking

/-- POSE_TIMER_EXPIRY, taken while the timer runs (log 4). -/
def execPoseTimerExpiry (s : State) : Host.Outcome State Fault Refusal :=
  event s fun s => if s.bal.poseTimer.isRunning then s.poseExpiry else s

end Sys2Proof.Machine
end

