-- ==== Sys2Proof/Machine/GaitCommands.lean ====
section
/-! DEFINITION. The gait sequencer's commands GAIT and RESUME (6.6, 6.7). Every response carries the gait report (R124). -/

namespace Sys2Proof.Machine

/-- A GAIT or RESUME answer: the result with the gait report after the command (R124). -/
def gaitAnswer (s : State) (r : Result) : Effect := (⟨r, gaitReport s.seq, false⟩, s)

/-- GAIT's first check: permission (R123). -/
def gaitPermitted (c : Client) (s : State) (body : Effect) : Effect :=
  if notPerception c then body else gaitAnswer s .notPermitted

/-- A stance record has its check-failed flag set (R125, R130). -/
def State.anyStanceFailed (s : State) : Bool :=
  Leg.all.any fun l =>
    match (s.leg l).stance with
    | none => false
    | some h =>
      match s.slot h.index with
      | none => false
      | some r => r.state.isFailed

/-! ### STAND (R125) -/

/-- STAND from WALKING or HOLDING with a lift still on its way or a leg past UNLOADING: STOPPING (R125). -/
def State.mustStop (s : State) : Bool :=
  s.seq.liftPending.isSome || Leg.all.any fun l => (s.leg l).phase.inFlight && (s.leg l).phase != .unloading

/-- STAND from WALKING or HOLDING to STANDING, with an UNLOADING leg's lift withdrawn. The gait state changes first, so
the queue changes are reported to a sequencer that has left walking (DEDUCED, unsafe, log 13); an overflow is recounted
(R59, R94, R125). -/
def State.standNow (s : State) : State :=
  let standing := s.leaveTo .standing
  (Leg.all.foldl State.withdrawLift standing).recountIf standing.withdrawalOverflows

/-- STAND's effect (R125). -/
def standEffect (s : State) : Effect :=
  match s.seq.gait with
  | .off =>
    if s.allStance && !s.anyStanceFailed && !s.marginUnsafe then gaitAnswer (s.leaveTo .standing) .done
    else gaitAnswer s .wrongState
  | .walking | .holding =>
    if s.mustStop then gaitAnswer (s.leaveTo .stopping) .done else gaitAnswer s.standNow .done
  | .standing | .stopping => gaitAnswer s .done
  | .halted => gaitAnswer s .wrongState

/-- GAIT STAND. -/
def execGaitStand (h : FrameHead) (s : State) : Host.Outcome State Fault Refusal :=
  frameEvent s h 16 [0] fun c s => gaitPermitted c s (standEffect s)

/-! ### WALK and PAUSE (R126) -/

/-- WALK accepted in STANDING: PAUSE removed, WALKING or HOLDING by the set, an entry to HOLDING pending the GAIT node,
then lift readiness (R126). -/
def State.startWalking (s : State) : State :=
  let cleared := s.putReason .pause false
  ((cleared.setSeq { cleared.seq with gait := .walking }).settleGait).evaluate

/-- WALK's effect (R126). -/
def walkEffect (s : State) : Effect :=
  match s.seq.gait with
  | .standing => if s.allStance then gaitAnswer s.startWalking .done else gaitAnswer s .wrongState
  | .holding => gaitAnswer (s.removeReason .pause) .done
  | .walking => gaitAnswer s .done
  | .off | .stopping | .halted => gaitAnswer s .wrongState

/-- GAIT WALK. -/
def execGaitWalk (h : FrameHead) (s : State) : Host.Outcome State Fault Refusal :=
  frameEvent s h 16 [1] fun c s => gaitPermitted c s (walkEffect s)

/-- PAUSE's effect (R126). -/
def pauseEffect (s : State) : Effect :=
  match s.seq.gait with
  | .walking | .holding => gaitAnswer (s.addReason .pause) .done
  | .off | .standing | .stopping | .halted => gaitAnswer s .wrongState

/-- GAIT PAUSE. -/
def execGaitPause (h : FrameHead) (s : State) : Host.Outcome State Fault Refusal :=
  frameEvent s h 16 [2] fun c s => gaitPermitted c s (pauseEffect s)

/-! ### OFF and HALT (R128, R129) -/

/-- The entry to OFF: halt reason none, MARGIN, NO_FOOTHOLD, POSE_STALE and PAUSE out of the set (R128). -/
def State.enterOff (s : State) : State :=
  s.setSeq { s.seq with gait := .off, haltReason := none, reasons := s.seq.reasons.withoutWalk }

/-- OFF's effect (R128). -/
def offEffect (s : State) : Effect :=
  match s.seq.gait with
  | .standing | .halted =>
    if s.anyInFlight || s.seq.liftPending.isSome then gaitAnswer s .wrongState else gaitAnswer s.enterOff .done
  | .off => gaitAnswer s .done
  | .walking | .holding | .stopping => gaitAnswer s .wrongState

/-- GAIT OFF. -/
def execGaitOff (h : FrameHead) (s : State) : Host.Outcome State Fault Refusal :=
  frameEvent s h 16 [3] fun c s => gaitPermitted c s (offEffect s)

/-- HALT's effect: the halt cause CLIENT (R129). -/
def haltEffect (s : State) : Effect := gaitAnswer (s.haltCause .client) .done

/-- GAIT HALT, which may be broadcast. -/
def execGaitHalt (h : FrameHead) (s : State) : Host.Outcome State Fault Refusal :=
  frameEvent s h 16 [4] fun c s => gaitPermitted c s (haltEffect s)

/-! ### FORWARD, BACKWARD, REPORT (R116, R123) -/

/-- A pattern named in OFF or STANDING, with the order pointer on its first leg (R116). -/
def patternEffect (p : Pattern) (s : State) : Effect :=
  match s.seq.gait with
  | .off | .standing => gaitAnswer (s.setSeq { s.seq with pattern := p, pointer := p.first }) .done
  | .walking | .holding | .stopping | .halted => gaitAnswer s .wrongState

/-- GAIT FORWARD. -/
def execGaitForward (h : FrameHead) (s : State) : Host.Outcome State Fault Refusal :=
  frameEvent s h 16 [5] fun c s => gaitPermitted c s (patternEffect .forward s)

/-- GAIT BACKWARD. -/
def execGaitBackward (h : FrameHead) (s : State) : Host.Outcome State Fault Refusal :=
  frameEvent s h 16 [6] fun c s => gaitPermitted c s (patternEffect .backward s)

/-- GAIT by its mode word; a mode outside the table is refused with OUT_OF_RANGE (R123). -/
def gaitEffect (mode : Word) (s : State) : Effect :=
  match mode.toNat with
  | 0 => standEffect s
  | 1 => walkEffect s
  | 2 => pauseEffect s
  | 3 => offEffect s
  | 4 => haltEffect s
  | 5 => patternEffect .forward s
  | 6 => patternEffect .backward s
  | 7 => gaitAnswer s .done
  | _ => gaitAnswer s .outOfRange

/-- GAIT's effect, by its mode word. -/
def takeGait (mode : Word) (c : Client) (s : State) : Effect := gaitPermitted c s (gaitEffect mode s)

/-- GAIT REPORT, and GAIT with a mode outside the table (R123). -/
def execGaitReport (h : FrameHead) (mode : Word) (s : State) : Host.Outcome State Fault Refusal :=
  frameEvent s h 16 [mode] (takeGait mode)

/-! ### RESUME (R130) -/

/-- RESUME's effect (R130). -/
def takeResume (c : Client) (s : State) : Effect :=
  if !supervisorOnly c then gaitAnswer s .notPermitted
  else if s.seq.gait ≠ .halted then gaitAnswer s .wrongState
  else if s.seq.liftPending.isSome || !s.allStance then gaitAnswer s .wrongState
  else if s.anyStanceFailed then gaitAnswer s .wrongState
  else if s.marginUnsafe then gaitAnswer s .wrongState
  else gaitAnswer (s.setSeq { s.seq with gait := .standing, haltReason := none }) .done

/-- RESUME. -/
def execResume (h : FrameHead) (s : State) : Host.Outcome State Fault Refusal :=
  frameEvent s h 17 [] takeResume

end Sys2Proof.Machine
end

