-- ==== Sys2Proof/Machine/LaneCommands.lean ====
section
/-! DEFINITION. The lane interface's commands STATUS, LASTCMD, LANE and RESET, the end of a response and the power-on
reset (chapter 10). -/

namespace Sys2Proof.Machine

/-- STATUS's effect: DONE and no answer words (R181). -/
def takeStatus (c : Client) (s : State) : Effect := permitted anyClient c s (doneWith s [])

/-- STATUS. -/
def execStatus (h : FrameHead) (s : State) : Host.Outcome State Fault Refusal :=
  frameEvent s h 28 [] takeStatus

/-- LASTCMD's effect: the last command header (R181). -/
def takeLastcmd (c : Client) (s : State) : Effect := permitted anyClient c s (doneWith s [s.lanes.lastHeader])

/-- LASTCMD. -/
def execLastcmd (h : FrameHead) (s : State) : Host.Outcome State Fault Refusal :=
  frameEvent s h 29 [] takeLastcmd

/-- A lane's transmitter shut or opened (R182). -/
def Lanes.setShut (v : Lanes) (l : Lane) (shut : Bool) : Lanes :=
  match l with
  | .a => { v with shutA := shut }
  | .b => { v with shutB := shut }

/-- LANE's effect: its lane and operation words in range, the named lane not the one it arrived on, no SHUT from a shut
lane; then the shut word (R182). -/
def takeLane (arrival : Lane) (lane operation : Word) (c : Client) (s : State) : Effect :=
  permitted supervisorOnly c s <|
    match laneOf lane, indexOf 2 operation.toNat with
    | some l, some o =>
      if l = arrival then refuse s .wrongState
      else if o.val = 0 ∧ s.lanes.isShut arrival then refuse s .wrongState
      else
        let after := s.setLanes (s.lanes.setShut l (o.val == 0))
        doneWith after [after.shutWord]
    | _, _ => refuse s .outOfRange

/-- LANE SHUT, and LANE with an operation outside the table (R182). -/
def execLaneShut (h : FrameHead) (lane operation : Word) (s : State) : Host.Outcome State Fault Refusal :=
  frameEvent s h 30 [lane, operation] (takeLane h.lane lane operation)

/-- LANE OPEN (R182). -/
def execLaneOpen (h : FrameHead) (lane : Word) (s : State) : Host.Outcome State Fault Refusal :=
  frameEvent s h 30 [lane, 1] (takeLane h.lane lane 1)

/-- RESET's effect: accepted, its reset to follow its response (R183). -/
def takeResetCommand (c : Client) (s : State) : Effect :=
  permitted supervisorOnly c s (⟨.done, [], true⟩, s)

/-- RESET. -/
def execReset (h : FrameHead) (s : State) : Host.Outcome State Fault Refusal :=
  frameEvent s h 31 [] takeResetCommand

/-- RESPONSE_END: no response is in flight any longer; at the end of a RESET's response the reset is taken (R179, R183).
With none in flight there is no end (log 4). -/
def execResponseEnd (s : State) : Host.Outcome State Fault Refusal :=
  event s fun s =>
    match s.lanes.inFlight with
    | none => s
    | some ⟨_, _, true⟩ => s.takeReset s.lanes.straps
    | some ⟨_, _, false⟩ => s.setLanes { s.lanes with inFlight := none }

/-- POWER_ON_RESET: every block returns to its reset state and the straps are sampled (R183, R173). -/
def execPowerOnReset (straps : BitVec 4) (s : State) : Host.Outcome State Fault Refusal :=
  event s fun s => s.takeReset straps

end Sys2Proof.Machine
end

