-- ==== Sys2Proof/Machine/PortEvents.lean ====
section
/-! DEFINITION. The leg ports: the declaration of a link DOWN and UP (R74, R76), the steps of a contact report (R66 to
R69, R78 to R86), and the port's own timers (R70, R73, R84). -/

namespace Sys2Proof.Machine

/-! ### Slip condition and link state -/

/-- A HELD slip condition becomes NOT_HELD with its re-arm timer stopped, and a slip re-arm is handed to the phase machine
(R79, R84); a condition not held is left as it is. -/
def State.rearmSlip (s : State) (l : Leg) : State :=
  if (s.port l).slipHeld then
    (s.setPort l { s.port l with slipHeld := false, rearmTimer := .stopped }).slipRearmHanded l
  else s

/-- The port's part of a DOWN declaration: link state, loss reason, pending order, last order kind, detector, and the
liveness window restarted with the length in force (R73, R76). -/
def Port.down (p : Port) (reason : LossReason) (window : Nat) : Port :=
  { p with
    linkUp := false
    loss := reason
    pending := none
    retries := 0
    echoTimer := .stopped
    lastKind := none
    arming := .unarmed
    windowCount := 0
    goodRun := 0
    windowPeriod := window }

/-- A declaration of link DOWN (R76): the port's part, the slip re-arm, then the link DOWN handed to the phase machine. -/
def State.declareDown (s : State) (l : Leg) (reason : LossReason) : State :=
  ((s.setPort l ((s.port l).down reason (s.paramNat 8))).rearmSlip l).legLost l

/-- The port's part of a link UP: run 0, loss reason kept, detector UNARMED, slip condition NOT_HELD (R74). -/
def Port.up (p : Port) : Port :=
  { p with linkUp := true, goodRun := 0, arming := .unarmed, slipHeld := false, rearmTimer := .stopped }

/-! ### Liveness (R73 to R75) -/

/-- The next window: count 0 and the length in force (R73). -/
def Port.nextWindow (p : Port) (window : Nat) : Port := { p with windowCount := 0, windowPeriod := window }

/-- The end of a liveness window, classified by the min frames in force, acted on by link state, and followed by the next
window (R73, R74, R75). -/
def State.windowEnd (s : State) (l : Leg) : State :=
  let p := s.port l
  let good : Bool := s.paramNat 9 ≤ p.windowCount
  let next := p.nextWindow (s.paramNat 8)
  if p.linkUp then if good then s.setPort l next else s.declareDown l .silent
  else if good then
    if p.goodRun + 1 = 2 then (s.setPort l next.up).linkUpHanded l
    else s.setPort l { next with goodRun := p.goodRun + 1 }
  else s.setPort l { next with goodRun := 0 }

/-! ### Echo timer (R70) -/

/-- The expiry of the echo timer: the pending frame sent again word for word, or the link declared DOWN with reason
NO_ECHO (R70). It is taken while the timer runs (log 4). -/
def State.echoExpiry (s : State) (l : Leg) : State :=
  let p := s.port l
  if p.echoTimer.isRunning then
    match p.pending with
    | none => s
    | some o =>
      if p.retries < s.paramNat 11 then
        { s.setPort l { p with retries := p.retries + 1, echoTimer := s.timerFor 10 } with
          ordersSent := s.ordersSent ++ [(l, o)] }
      else s.declareDown l .noEcho
  else s

/-! ### The contact report (R66, R67) -/

/-- The report's fields: arrived 11, overtemperature 10, joint fault code 2–0 of the flags word; the loads 10–0 of the
next two words (11.5). -/
def reportOf (flags normal tangential : Word) : Report where
  normal := normal.extractLsb' 0 11
  tangential := tangential.extractLsb' 0 11
  arrived := flags.getLsbD 11
  overtemp := flags.getLsbD 10
  jointFault := flags.extractLsb' 0 3

/-- The order echo, bits 15–12 of the flags word (11.5). -/
def echoOf (flags : Word) : BitVec 4 := flags.extractLsb' 12 4

/-- TANGENTIAL_RATIO: tangential × 256 ÷ normal, truncated and held at 32767; 0 below the touchdown load (R150). -/
def tangentialRatio (normal tangential : Nat) (touchdownLoad : Int) : Int :=
  if (normal : Int) < touchdownLoad then 0 else (min 32767 (tangential * 256 / normal) : Nat)

/-- Step 1: the last report, the window count up to 255, and the three watch-term values (R66, R86, R150). The order of
the three deliveries is the model's (DESIGN CHOICE, unsafe, log 11). -/
def State.reportStore (s : State) (l : Leg) (r : Report) : State :=
  let p := s.port l
  let stored := s.setPort l { p with report := r, windowCount := min 255 (p.windowCount + 1) }
  let ratio := tangentialRatio r.normal.toNat r.tangential.toNat (s.param 2)
  ((stored.deliver false .normalLoad l r.normal.toNat).deliver false .tangentialRatio l ratio).deliver
    false .overtemp l (if r.overtemp then 1 else 0)

/-- Step 2: a nonzero joint fault code latches joint fault present; on an UP link the loss reason becomes JOINT and the
leg is lost (R85). -/
def State.reportFault (s : State) (l : Leg) (r : Report) : State :=
  let p := s.port l
  if r.jointFault = 0 ∨ p.jointFault then s
  else if p.linkUp then (s.setPort l { p with jointFault := true, loss := .joint }).legLost l
  else s.setPort l { p with jointFault := true }

/-- Step 3: an echo that equals the pending order's number completes the order (R69). -/
def State.reportEcho (s : State) (l : Leg) (echo : BitVec 4) : State :=
  let p := s.port l
  match p.pending with
  | none => s
  | some o =>
    if echo = o.number then s.setPort l { p with pending := none, retries := 0, echoTimer := .stopped } else s

/-- Step 4: an arrival for the current PLACE (R68). -/
def State.reportArrival (s : State) (l : Leg) (r : Report) (echo : BitVec 4) : State :=
  let p := s.port l
  if r.arrived ∧ p.lastKind = some .place ∧ echo = p.lastNumber then s.arrivalHanded l else s

/-- A touchdown edge: armed FOR_LIFTOFF, a HELD slip condition re-armed, the edge handed (R79). -/
def State.touchdownEdge (s : State) (l : Leg) : State :=
  ((s.setPort l { s.port l with arming := .forLiftoff }).rearmSlip l).touchdownHanded l

/-- A liftoff edge: armed FOR_TOUCHDOWN, the edge handed (R80). -/
def State.liftoffEdge (s : State) (l : Leg) : State :=
  (s.setPort l { s.port l with arming := .forTouchdown }).liftoffHanded l

/-- Step 5: the detector. An UNARMED detector is armed and takes no edge (R78, R79, R80). -/
def State.reportEdges (s : State) (l : Leg) (r : Report) : State :=
  let p := s.port l
  let load : Int := r.normal.toNat
  match p.arming with
  | .unarmed => s.setPort l { p with arming := if s.param 2 ≤ load then .forLiftoff else .forTouchdown }
  | .forTouchdown => if s.param 2 ≤ load then s.touchdownEdge l else s
  | .forLiftoff => if load < s.param 3 then s.liftoffEdge l else s

/-- The record a report's slip test uses: the stance record in STANCE, the target in TOUCHDOWN, none elsewhere (R81). -/
def State.slipRecord (s : State) (l : Leg) : Option FootRecord :=
  match (s.leg l).phase with
  | .stance => (s.leg l).stance.bind fun h => s.slot h.index
  | .touchdown => (s.leg l).target.bind fun h => s.slot h.index
  | .unseen | .idle | .unloading | .swing | .seeking | .descent | .lost => none

/-- The slip condition: the normal load at or above the touchdown load, and tangential × 256 greater than the friction
estimate × normal (R82). -/
def State.slipCondition (s : State) (l : Leg) (r : Report) : Bool :=
  match s.slipRecord l with
  | none => false
  | some rec =>
    s.param 2 ≤ (r.normal.toNat : Int)
      && rec.content.friction.toNat * r.normal.toNat < r.tangential.toNat * 256

/-- Step 6: the slip condition. It holds while NOT_HELD: a slip event, HELD. It holds while HELD: the re-arm timer stops.
It does not hold while HELD: the re-arm timer starts unless it runs (R83, R84). -/
def State.reportSlip (s : State) (l : Leg) (r : Report) : State :=
  let p := s.port l
  if s.slipCondition l r then
    if p.slipHeld then s.setPort l { p with rearmTimer := .stopped }
    else (s.setPort l { p with slipHeld := true }).slipHanded l
  else if p.slipHeld && !p.rearmTimer.isRunning then s.setPort l { p with rearmTimer := s.timerFor 4 }
  else s

/-- A step of a report that is taken on an UP link alone (R66, R67). -/
def State.onUpLink (s : State) (l : Leg) (f : State → State) : State := if (s.port l).linkUp then f s else s

/-- A good report: its six steps, each on the state as the steps before it have left it (R66, R67). -/
def State.goodReport (s : State) (l : Leg) (r : Report) (echo : BitVec 4) : State :=
  let s1 := s.reportStore l r
  let s2 := s1.reportFault l r
  let s3 := s2.onUpLink l fun s => s.reportEcho l echo
  let s4 := s3.onUpLink l fun s => s.reportArrival l r echo
  let s5 := s4.onUpLink l fun s => s.reportEdges l r
  s5.onUpLink l fun s => s.reportSlip l r

/-- A contact report's arrival: a report whose check word does not match is discarded and sets the FRAME bit (R66). -/
def State.takeReport (s : State) (l : Leg) (flags normal tangential check : Word) : State :=
  if checkCode [flags, normal, tangential] = check then
    s.goodReport l (reportOf flags normal tangential) (echoOf flags)
  else s.setFrameFlag

/-- The expiry of the slip re-arm timer, taken while it runs: NOT_HELD and a slip re-arm handed (R84). -/
def State.rearmExpiry (s : State) (l : Leg) : State :=
  if (s.port l).rearmTimer.isRunning then s.rearmSlip l else s

end Sys2Proof.Machine
end

