-- ==== Sys2Proof/Machine/StoreCommands.lean ====
section
/-! DEFINITION. The foothold store's seven commands (chapter 2). -/

namespace Sys2Proof.Machine

/-! ### SUBMIT (R25, R26) -/

/-- The record indexes from 0 upward. -/
def allIndexes : List RecordIndex := List.finRange 40

/-- The lowest-numbered FREE index (R26). -/
def State.lowestFree (s : State) : Option RecordIndex := allIndexes.find? fun i => (s.slot i).isNone

/-- A class word whose class, slope grade or confidence is out of range (R25, R39). -/
def classWordBad (w : Word) : Bool := 7 < classField w || 12 < slopeField w || 15 < confidenceField w

/-- The content that creation writes: the friction estimate from the class coefficient in force, slip count 0, the check
code over it with the index's current generation (R7). -/
def State.newContent (s : State) (i : RecordIndex) (x y z classWord : Word) : StoredContent :=
  let cls := BitVec.ofNat 3 (classField classWord)
  sealContent
    { x := x
      y := y
      z := z
      surfaceClass := cls
      slope := BitVec.ofNat 4 (slopeField classWord)
      confidence := BitVec.ofNat 4 (confidenceField classWord)
      friction := (s.frictionOf cls).coefficient
      slips := 0
      check := 0 } (s.gen i)

/-- The record that creation writes (R7). -/
def State.newRecord (s : State) (i : RecordIndex) (c : Client) (x y z classWord : Word) : FootRecord where
  state := .candidate
  content := s.newContent i x y z classWord
  origin := c
  birth := s.seq.stride
  tag := s.seq.stride

/-- SUBMIT's effect (R25, R26, R7). -/
def takeSubmit (x y z classWord : Word) (c : Client) (s : State) : Effect :=
  permittedIdle anyClient c s <|
    if isLowest x || isLowest y || isLowest z || classWordBad classWord then refuse s .outOfRange
    else
      match s.lowestFree with
      | none => refuse s .full
      | some i =>
        doneWith (s.setSlot i (some (s.newRecord i c x y z classWord))).recount [(s.handleOf i).word]

/-- SUBMIT. -/
def execSubmit (h : FrameHead) (x y z classWord : Word) (s : State) : Host.Outcome State Fault Refusal :=
  frameEvent s h 1 [x, y, z, classWord] (takeSubmit x y z classWord)

/-! ### AMEND (R27 to R29) -/

/-- The range checks of AMEND, on the value words its mask selects (R27). -/
def amendBad (mask x y z classWord : Word) : Bool :=
  (selPosition mask && (isLowest x || isLowest y || isLowest z))
    || (selClass mask && 7 < classField classWord)
    || (selSlope mask && 12 < slopeField classWord)
    || (selConfidence mask && 15 < confidenceField classWord)

/-- The mask selects nothing (R27). -/
def selectsNothing (mask : Word) : Bool :=
  !(selPosition mask || selClass mask || selSlope mask || selConfidence mask || selClearSlips mask)

/-- The content after the selected fields are written; a selected CLASS sets the friction estimate, and CLEAR_SLIPS sets
it from the class as it then stands; the check code is computed once over the result (R14, R28). -/
def State.amendedContent (s : State) (mask x y z classWord : Word) (c : StoredContent) (gen : BitVec 4) : StoredContent :=
  let placed := if selPosition mask then { c with x := x, y := y, z := z } else c
  let cls := BitVec.ofNat 3 (classField classWord)
  let classed :=
    if selClass mask then { placed with surfaceClass := cls, friction := (s.frictionOf cls).coefficient } else placed
  let sloped := if selSlope mask then { classed with slope := BitVec.ofNat 4 (slopeField classWord) } else classed
  let trusted :=
    if selConfidence mask then { sloped with confidence := BitVec.ofNat 4 (confidenceField classWord) } else sloped
  let cleared :=
    if selClearSlips mask then
      { trusted with slips := 0, friction := (s.frictionOf trusted.surfaceClass).coefficient }
    else trusted
  sealContent cleared gen

/-- AMEND of a RESERVED record: written, then tested by slope and confidence; it stays in its place or leaves its queue
for CANDIDATE (R29, R48). -/
def amendReserved (o : Leg) (i : RecordIndex) (r : FootRecord) (content : StoredContent) (s : State) : Effect :=
  let before := s.queue o
  if slopePasses content && s.confidencePasses content then
    let written := s.setSlot i (some { r with content := content })
    answer (written.reportQueue o before (before.head?.map Handle.index == some i)) .done
  else
    let left := (s.dropFromQueue o i).setSlot i
      (some (FootRecord.moveTo { r with content := content } .candidate s.seq.stride))
    answer ((left.reportQueue o before false).recount) .dequeued

/-- AMEND whose mask selects nothing: the record is left as it stands and untested, and the answer is DONE (R27). An AMEND
of a queue's entry that answers DONE is a change of the queue, which is reported (R48), and an AMEND of a CANDIDATE recounts
(R150). That R29's tests are left out is DEDUCED from R27 (unsafe, log 21). -/
def amendNothing (i : RecordIndex) (r : FootRecord) (s : State) : Effect :=
  match r.state with
  | .reserved o => answer (s.reportQueue o (s.queue o) ((s.queue o).head?.map Handle.index == some i)) .done
  | .candidate => answer s.recount .done
  | .suspect => answer s .done
  | .target _ | .loaded _ _ => refuse s .inUse

/-- AMEND's effect once its record is found and its own checks are passed (R27, R28, R29). -/
def amendRecord (mask x y z classWord : Word) (i : RecordIndex) (r : FootRecord) (s : State) : Effect :=
  if selectsNothing mask then amendNothing i r s
  else
    let content := s.amendedContent mask x y z classWord r.content (s.gen i)
    match r.state with
    | .reserved o => amendReserved o i r content s
    | .candidate => answer (s.setSlot i (some { r with content := content })).recount .done
    | .suspect =>
      if selClearSlips mask then
        answer (s.setSlot i (some (FootRecord.moveTo { r with content := content } .candidate s.seq.stride))).recount
          .done
      else answer (s.setSlot i (some { r with content := content })) .done
    | .target _ | .loaded _ _ => refuse s .inUse

/-- AMEND's own checks, in their order (R27). -/
def amendRefusal (mask : Word) (st : RecordState) : Option Result :=
  match st with
  | .target _ | .loaded _ _ => some .inUse
  | .candidate => if selClearSlips mask then some .wrongState else none
  | .reserved _ => if selClearSlips mask || selPosition mask then some .wrongState else none
  | .suspect => none

/-- AMEND's effect (R27). -/
def takeAmend (handle mask x y z classWord : Word) (c : Client) (s : State) : Effect :=
  permittedIdle notPlanner c s <|
    if amendBad mask x y z classWord then refuse s .outOfRange
    else
      match s.named handle with
      | none => refuse s .noRecord
      | some (i, r) =>
        match amendRefusal mask r.state with
        | some e => refuse s e
        | none => amendRecord mask x y z classWord i r s

/-- AMEND. -/
def execAmend (h : FrameHead) (handle mask x y z classWord : Word) (s : State) :
    Host.Outcome State Fault Refusal :=
  frameEvent s h 2 [handle, mask, x, y, z, classWord] (takeAmend handle mask x y z classWord)

/-! ### QUERY (R30) -/

/-- QUERY's effect: the record words, or CHECK_FAILED with the failure's whole outcome; a LOADED record whose flag is set
answers CHECK_FAILED and finds no new failure (R20, R30). -/
def takeQuery (handle : Word) (c : Client) (s : State) : Effect :=
  permittedIdle anyClient c s <|
    match s.named handle with
    | none => refuse s .noRecord
    | some (i, r) =>
      if r.state.isFailed then refuse s .checkFailed
      else if verifies r.content (s.gen i) then doneWith s (recordWords (s.handleOf i) r)
      else answer (s.failRecord i r) .checkFailed

/-- QUERY. -/
def execQuery (h : FrameHead) (handle : Word) (s : State) : Host.Outcome State Fault Refusal :=
  frameEvent s h 3 [handle] (takeQuery handle)

/-! ### FIND (R31, R32) -/

/-- The Chebyshev distance in the horizontal plane, formed without overflow (00_scope.md, R31, R51). -/
def chebyshev (ax ay bx by' : Int) : Nat := max (ax - bx).natAbs (ay - by').natAbs

/-- The distance of a qualifying record (R31). -/
def State.findDistance (s : State) (x y radius minConfidence : Word) (i : RecordIndex) : Option Nat :=
  match s.slot i with
  | none => none
  | some r =>
    let d := chebyshev r.content.x.toInt r.content.y.toInt x.toInt y.toInt
    if r.state = .candidate ∧ d ≤ radius.toNat ∧ slopePasses r.content ∧ s.confidencePasses r.content
        ∧ minConfidence.toNat ≤ r.content.confidence.toNat then some d else none

/-- The better of two choices: the least distance, and among equal distances the lowest index; later indexes come later
(R32). -/
def nearer (best : Option (RecordIndex × Nat)) (i : RecordIndex) (d : Option Nat) : Option (RecordIndex × Nat) :=
  match best, d with
  | best, none => best
  | none, some d => some (i, d)
  | some (j, e), some d => if d < e then some (i, d) else some (j, e)

/-- The choice among the qualifying records (R32). -/
def State.findBest (s : State) (x y radius minConfidence : Word) : Option (RecordIndex × Nat) :=
  allIndexes.foldl (fun best i => nearer best i (s.findDistance x y radius minConfidence i)) none

/-- The search: a chosen record that verifies is the answer; one that fails its check becomes FREE and the search goes on
(R32). The flag tells whether any record was freed. Forty records bound the search. -/
def findLoop (x y radius minConfidence : Word) :
    Nat → State × Bool → Option (RecordIndex × Nat) × State × Bool
  | 0, (s, freed) => (none, s, freed)
  | n + 1, (s, freed) =>
    match s.findBest x y radius minConfidence with
    | none => (none, s, freed)
    | some (i, d) =>
      match s.slot i with
      | none => (none, s, freed)
      | some r =>
        if verifies r.content (s.gen i) then (some (i, d), s, freed)
        else findLoop x y radius minConfidence n (s.freeFailed i, true)

/-- FIND's answer words: the handle and the distance, or NONE and 0 (R32). -/
def State.findWords (s : State) (found : Option (RecordIndex × Nat)) : List Word :=
  match found with
  | some (i, d) => [(s.handleOf i).word, BitVec.ofNat 16 d]
  | none => [noneHandleWord, 0]

/-- FIND's effect (R31, R32). The whole search is one event, so the store recounts once after it (log 7). -/
def takeFind (x y radius minConfidence : Word) (c : Client) (s : State) : Effect :=
  permittedIdle anyClient c s <|
    if isLowest x || isLowest y || radius.toNat < 1 || 2000 < radius.toNat || 15 < minConfidence.toNat then
      refuse s .outOfRange
    else
      let found := findLoop x y radius minConfidence 41 (s, false)
      doneWith (found.2.1.recountIf found.2.2) (found.2.1.findWords found.1)

/-- FIND. -/
def execFind (h : FrameHead) (x y radius minConfidence : Word) (s : State) : Host.Outcome State Fault Refusal :=
  frameEvent s h 4 [x, y, radius, minConfidence] (takeFind x y radius minConfidence)

/-! ### RETIRE (R33) -/

/-- RETIRE's effect on a record that is found (R33). -/
def retireRecord (c : Client) (i : RecordIndex) (r : FootRecord) (s : State) : Effect :=
  match r.state with
  | .candidate => answer (s.freeRecord i .client).recount .done
  | .suspect => answer (s.freeRecord i .client) .done
  | .reserved o =>
    match c with
    | .perception => refuse s .notPermitted
    | .planner | .supervisor =>
      answer (((s.dropFromQueue o i).freeRecord i .client).reportQueue o (s.queue o) false) .done
  | .target _ | .loaded _ _ => refuse s .inUse

/-- RETIRE's effect (R33). -/
def takeRetire (handle : Word) (c : Client) (s : State) : Effect :=
  permittedIdle anyClient c s <|
    match s.named handle with
    | none => refuse s .noRecord
    | some (i, r) => retireRecord c i r s

/-- RETIRE. -/
def execRetire (h : FrameHead) (handle : Word) (s : State) : Host.Outcome State Fault Refusal :=
  frameEvent s h 5 [handle] (takeRetire handle)

/-! ### RESTORE (R39) -/

/-- The content that RESTORE writes: position, class, slope grade, friction estimate and confidence from the command, the
slip count kept, the check code recomputed (R39). -/
def restoredContent (x y z classWord friction : Word) (c : StoredContent) (gen : BitVec 4) : StoredContent :=
  sealContent
    { c with
      x := x
      y := y
      z := z
      surfaceClass := BitVec.ofNat 3 (classField classWord)
      slope := BitVec.ofNat 4 (slopeField classWord)
      confidence := BitVec.ofNat 4 (confidenceField classWord)
      friction := BitVec.ofNat 9 friction.toNat } gen

/-- RESTORE's effect (R39). -/
def takeRestore (handle x y z classWord friction : Word) (c : Client) (s : State) : Effect :=
  permittedIdle supervisorOnly c s <|
    if isLowest x || isLowest y || isLowest z || classWordBad classWord || 511 < friction.toNat then
      refuse s .outOfRange
    else
      match s.named handle with
      | none => refuse s .noRecord
      | some (i, r) =>
        if s.seq.gait ≠ .halted then refuse s .wrongState
        else
          match r.state with
          | .loaded o true =>
            let content := restoredContent x y z classWord friction r.content (s.gen i)
            let restored := s.setSlot i (some { r with state := .loaded o false, content := content })
            answer restored.computeCurrent .done
          | .candidate | .reserved _ | .target _ | .loaded _ false | .suspect => refuse s .wrongState

/-- RESTORE. -/
def execRestore (h : FrameHead) (handle x y z classWord friction : Word) (s : State) :
    Host.Outcome State Fault Refusal :=
  frameEvent s h 6 [handle, x, y, z, classWord, friction] (takeRestore handle x y z classWord friction)

/-! ### REBASE (R40, R41) -/

/-- A position shifted by an offset stays within −32767 to +32767 (R40, R43). -/
def shiftsInFrame (c : StoredContent) (dx dy dz : Word) : Bool :=
  inFrame (c.x.toInt + dx.toInt) && inFrame (c.y.toInt + dy.toInt) && inFrame (c.z.toInt + dz.toInt)

/-- The record is RESERVED, TARGET or LOADED (R40, R51). -/
def RecordState.isHeld : RecordState → Bool
  | .reserved _ | .target _ | .loaded _ _ => true
  | .candidate | .suspect => false

/-- The pre-check passes: every held record's shifted position stays in the frame (R40 check 5). -/
def State.preCheck (s : State) (dx dy dz : Word) : Bool :=
  s.store.slots.toList.all fun slot =>
    match slot with
    | some r => !r.state.isHeld || shiftsInFrame r.content dx dy dz
    | none => true

/-- The held pose shifted, each coordinate held to the range; with no pose held there is nothing to shift (R41, R136). -/
def Balance.shift (b : Balance) (dx dy : Word) : Balance :=
  if b.freshness = .none then b
  else
    { b with
      pose :=
        { b.pose with
          x := BitVec.ofInt 16 (clampPosition (b.pose.x.toInt + dx.toInt))
          y := BitVec.ofInt 16 (clampPosition (b.pose.y.toInt + dy.toInt)) } }

/-- The acceptance of a REBASE: the walk at index 0, the reason REBASE, the pose shifted (R41). -/
def State.acceptRebase (s : State) (dx dy dz : Word) : State :=
  let walking := s.setStore { s.store with walk := some ⟨some 0, dx, dy, dz, 0⟩ }
  let held := walking.addReason .rebase
  held.setBal (held.bal.shift dx dy)

/-- REBASE's effect (R40, R41). -/
def takeRebase (dx dy dz : Word) (c : Client) (s : State) : Effect :=
  permittedIdle supervisorOnly c s <|
    if isLowest dx || isLowest dy || isLowest dz then refuse s .outOfRange
    else if s.anyInFlight || s.seq.liftPending.isSome then refuse s .wrongState
    else if !s.preCheck dx dy dz then refuse s .outOfRange
    else answer (s.acceptRebase dx dy dz) .done

/-- REBASE. -/
def execRebase (h : FrameHead) (dx dy dz : Word) (s : State) : Host.Outcome State Fault Refusal :=
  frameEvent s h 7 [dx, dy, dz] (takeRebase dx dy dz)

end Sys2Proof.Machine
end

