-- ==== Sys2Proof/Machine/QueueCommands.lean ====
section
/-! DEFINITION. The reservation unit's three commands (chapter 3) and the spacing test (R51). -/

namespace Sys2Proof.Machine

/-- The owner leg of a held record (R5). -/
def RecordState.owner : RecordState → Option Leg
  | .reserved o | .target o | .loaded o _ => some o
  | .candidate | .suspect => none

/-- The spacing test fails: a record that another leg holds lies closer than the min foot spacing (parameter 14) in
force. Positions are read as stored (R51). -/
def State.tooClose (s : State) (l : Leg) (c : StoredContent) : Bool :=
  s.store.slots.toList.any fun slot =>
    match slot with
    | none => false
    | some r =>
      match r.state.owner with
      | none => false
      | some o =>
        o != l && (chebyshev r.content.x.toInt r.content.y.toInt c.x.toInt c.y.toInt : Int) < s.param 14

/-- A RESERVE that passes every check: the record is RESERVED at the back of the leg's queue, the change is reported, and
the store recounts (R52, R150). -/
def State.reserveRecord (s : State) (l : Leg) (i : RecordIndex) (r : FootRecord) : State :=
  let before := s.queue l
  let joined := (s.setSlot i (some (r.reserveFor s.seq.stride l))).setQueue l (before ++ [s.handleOf i])
  (joined.reportQueue l before false).recount

/-- RESERVE's checks from the record's state on, and its effect (R49 steps 5 and 6, R50, R51, R52). -/
def reserveChecks (l : Leg) (i : RecordIndex) (r : FootRecord) (s : State) : Effect :=
  if r.state ≠ .candidate then refuse s .wrongState
  else if 3 ≤ (s.queue l).length then refuse s .full
  else if !slopePasses r.content then refuse s .notAdmissible
  else if !s.confidencePasses r.content then refuse s .notAdmissible
  else if !verifies r.content (s.gen i) then answer (s.failRecord i r) .checkFailed
  else if s.tooClose l r.content then refuse s .tooClose
  else answer (s.reserveRecord l i r) .done

/-- RESERVE's effect (R49). -/
def takeReserve (leg handle : Word) (c : Client) (s : State) : Effect :=
  permittedIdle notPerception c s <|
    match legOf leg with
    | none => refuse s .outOfRange
    | some l =>
      match s.named handle with
      | none => refuse s .noRecord
      | some (i, r) => reserveChecks l i r s

/-- RESERVE. -/
def execReserve (h : FrameHead) (leg handle : Word) (s : State) : Host.Outcome State Fault Refusal :=
  frameEvent s h 8 [leg, handle] (takeReserve leg handle)

/-- CANCEL of a RESERVED record: it leaves its queue for CANDIDATE, the change is reported, and the store recounts (R54,
R150). -/
def State.cancelRecord (s : State) (o : Leg) (i : RecordIndex) : State :=
  let left := (s.dropFromQueue o i).modRecord i (FootRecord.unreserve s.seq.stride o)
  (left.reportQueue o (s.queue o) false).recount

/-- CANCEL's effect (R54). -/
def takeCancel (handle : Word) (c : Client) (s : State) : Effect :=
  permittedIdle notPerception c s <|
    match s.named handle with
    | none => refuse s .noRecord
    | some (i, r) =>
      match r.state with
      | .reserved o => answer (s.cancelRecord o i) .done
      | .target _ => refuse s .inUse
      | .candidate | .loaded _ _ | .suspect => refuse s .wrongState

/-- CANCEL. -/
def execCancel (h : FrameHead) (handle : Word) (s : State) : Host.Outcome State Fault Refusal :=
  frameEvent s h 9 [handle] (takeCancel handle)

/-- QUEUE's effect (R55). -/
def takeQueue (leg : Word) (c : Client) (s : State) : Effect :=
  permitted anyClient c s <|
    match legOf leg with
    | none => refuse s .outOfRange
    | some l => doneWith s (queueWords (s.queue l))

/-- QUEUE. -/
def execQueue (h : FrameHead) (leg : Word) (s : State) : Host.Outcome State Fault Refusal :=
  frameEvent s h 10 [leg] (takeQueue leg)

end Sys2Proof.Machine
end

