-- ==== Sys2Proof/Machine/LegCommands.lean ====
section
/-! DEFINITION. The commands of the leg phase machines and leg ports (R77, R91, R110, R111) and the lift (R92, R122). -/

namespace Sys2Proof.Machine

/-! ### ADOPT (R91) -/

/-- ADOPT's success: the record LOADED and the stance record, the leg in STANCE, the detector armed FOR_LIFTOFF, the
monitor told, then the deliveries (R9, R78, R91, R150). -/
def State.adoptRecord (s : State) (l : Leg) (i : RecordIndex) (r : FootRecord) : State :=
  let loaded := s.setSlot i (some (r.adoptFor s.seq.stride l))
  let stood := loaded.setLeg l { s.leg l with phase := .stance, stance := some (s.handleOf i) }
  let armed := stood.setPort l { s.port l with arming := .forLiftoff }
  ((armed.supportChanged true).deliverSlipCount l r.content.slips.toNat).recount

/-- ADOPT's checks from the phase on, and its effect (R91 steps 5 to 9). -/
def adoptChecks (l : Leg) (i : RecordIndex) (r : FootRecord) (s : State) : Effect :=
  if (s.leg l).phase ≠ .idle then refuse s .wrongState
  else if ((s.port l).report.normal.toNat : Int) < s.param 2 then refuse s .notLoaded
  else if r.state ≠ .candidate then refuse s .wrongState
  else if !slopePasses r.content then refuse s .notAdmissible
  else if !verifies r.content (s.gen i) then answer (s.failRecord i r) .checkFailed
  else if s.tooClose l r.content then refuse s .tooClose
  else answer (s.adoptRecord l i r) .done

/-- ADOPT's effect (R91). -/
def takeAdopt (leg handle : Word) (c : Client) (s : State) : Effect :=
  permittedIdle notPerception c s <|
    match legOf leg with
    | none => refuse s .outOfRange
    | some l =>
      match s.named handle with
      | none => refuse s .noRecord
      | some (i, r) => adoptChecks l i r s

/-- ADOPT. -/
def execAdopt (h : FrameHead) (leg handle : Word) (s : State) : Host.Outcome State Fault Refusal :=
  frameEvent s h 12 [leg, handle] (takeAdopt leg handle)

/-! ### REDIRECT (R110) -/

/-- REDIRECT's success: the old target CANDIDATE, the taken front the target, SWING with the descent timer stopped and
the bounce count 0, PLACE composed, the queue change reported (R110). -/
def State.redirectTo (s : State) (l : Leg) (h : Handle) : State :=
  let released := match (s.leg l).target with
    | some old => s.modRecord old.index (FootRecord.releaseTarget s.seq.stride l)
    | none => s
  let taken := released.takeFront l h
  let aimed := taken.setLeg l
    { taken.leg l with phase := .swing, target := some h, bounce := 0, descentTimer := .stopped }
  let placed := aimed.composePlace l
  let reported := placed.reportToSequencer l
  let settled := if (reported.leg l).phase = .seeking then reported.seekAfterEntry l else reported
  settled.recount

/-- REDIRECT's checks from the phase on, and its effect (R110 steps 4 to 6). -/
def redirectChecks (l : Leg) (s : State) : Effect :=
  if (s.leg l).phase ≠ .swing ∧ (s.leg l).phase ≠ .descent then refuse s .wrongState
  else
    match s.frontTest l with
    | .empty => refuse s .empty
    | .inadmissible => refuse s .notAdmissible
    | .failed h => answer ((s.failReserved l h.index).reportQueue l (s.queue l) false) .checkFailed
    | .usable h => answer (s.redirectTo l h) .done

/-- REDIRECT's effect (R110). -/
def takeRedirect (leg : Word) (c : Client) (s : State) : Effect :=
  permittedIdle notPerception c s <|
    match legOf leg with
    | none => refuse s .outOfRange
    | some l => redirectChecks l s

/-- REDIRECT. -/
def execRedirect (h : FrameHead) (leg : Word) (s : State) : Host.Outcome State Fault Refusal :=
  frameEvent s h 13 [leg] (takeRedirect leg)

/-! ### LEGSTATE (R111) and RELINK (R77) -/

/-- LEGSTATE's effect (R111). -/
def takeLegstate (leg : Word) (c : Client) (s : State) : Effect :=
  permitted anyClient c s <|
    match legOf leg with
    | none => refuse s .outOfRange
    | some l => doneWith s (legWords (s.leg l) (s.port l))

/-- LEGSTATE. -/
def execLegstate (h : FrameHead) (leg : Word) (s : State) : Host.Outcome State Fault Refusal :=
  frameEvent s h 14 [leg] (takeLegstate leg)

/-- RELINK's effect: the joint fault latch clears, then every effect of a DOWN declaration with reason RELINK (R77). -/
def takeRelink (leg : Word) (c : Client) (s : State) : Effect :=
  permitted supervisorOnly c s <|
    match legOf leg with
    | none => refuse s .outOfRange
    | some l => answer ((s.setPort l { s.port l with jointFault := false }).declareDown l .relink) .done

/-- RELINK. -/
def execRelink (h : FrameHead) (leg : Word) (s : State) : Host.Outcome State Fault Refusal :=
  frameEvent s h 15 [leg] (takeRelink leg)

/-! ### The lift (R92, R122) -/

/-- The lift taken: the front is TARGET, the leg UNLOADING with LIFT asked for, the step flag set, the bounce count 0 and
the swing timer started (R92). -/
def State.startLift (s : State) (l : Leg) (h : Handle) : State :=
  let taken := s.takeFront l h
  (taken.setLeg l
    { taken.leg l with
      phase := .unloading
      target := some h
      bounce := 0
      stepFlag := true
      swingTimer := s.timerFor 6 }).sendPlain l .lift

/-- No lift is pending any longer (R122). -/
def State.clearLift (s : State) : State := s.setSeq { s.seq with liftPending := none }

/-- The outcome TAKEN reaches the sequencer: in STOPPING or HALTED it asks for a withdrawal in the same event, and the
leg's return to STANCE ends STOPPING; the queue changes are reported (R122, R57, R59). -/
def State.liftTaken (s : State) (l : Leg) (h : Handle) : State :=
  let started := (s.startLift l h).clearLift
  match s.seq.gait with
  | .stopping | .halted =>
    let withdrawn := (started.withdrawLift l).endStopping
    withdrawn.recountIf started.withdrawalOverflows
  | .off | .standing | .walking | .holding => started.reportToSequencer l

/-- The refusal reaches the sequencer: in WALKING or HOLDING it adds NO_FOOTHOLD and evaluates; STOPPING ends with no leg
in flight (R92, R120, R122). -/
def State.liftRefused (s : State) : State :=
  let cleared := s.clearLift
  if cleared.walkingSelected then (cleared.addReason .noFoothold).evaluate else cleared.endStopping

/-- The lift request taken at the leg's phase machine (R92). With the outcome CHECK the sequencer takes the refusal first
and the report of the queue change after it (R122). -/
def State.takeLift (s : State) (l : Leg) : State :=
  if (s.leg l).phase ≠ .stance then s.liftRefused
  else
    match s.frontTest l with
    | .empty => s.liftRefused
    | .inadmissible => s.liftRefused
    | .failed h => (s.failReserved l h.index).liftRefused.reportToSequencer l
    | .usable h => s.liftTaken l h

/-- LIFT: the pending lift reaches its leg. With none pending there is no request; during a rebase walk the request waits
(R42, R57, log 18). -/
def execLift (s : State) : Host.Outcome State Fault Refusal :=
  event s fun s =>
    match s.seq.liftPending with
    | none => s
    | some l => if s.rebasing then s else s.takeLift l

end Sys2Proof.Machine
end

