-- ==== Sys2Proof/Machine/ParamCommands.lean ====
section
/-! DEFINITION. The parameter and friction table commands (11.6). -/

namespace Sys2Proof.Machine

/-- A value outside a parameter's range, or a load threshold that would meet or cross the other (R186 checks 3 and 4). -/
def State.paramBad (s : State) (n : ParamNumber) (v : Int) : Bool :=
  v < (paramRow n).1 || (paramRow n).2.1 < v
    || (n == 2 && v ≤ s.param 3)
    || (n == 3 && s.param 2 ≤ v)

/-- Every leg in SEEKING asks for a take, as an accepted SETPARAM or FRICTION and the completion of a rebase walk make it
(R45, R105). The spec gives the legs no order among themselves; the model takes them by their numbers (DESIGN CHOICE,
unsafe, log 24). -/
def State.seekAll (s : State) : State := Leg.all.foldl State.seekAndReport s

/-- SETPARAM's write, the lift readiness event, the takes of SEEKING legs, and for the min confidence the recount (R105,
R120, R150, R186). -/
def State.writeParam (s : State) (n : ParamNumber) (v : Word) : State :=
  let written : State := { s with params := s.params.set n v }
  (written.evaluateIfWalking.seekAll).recountIf (n == 13)

/-- SETPARAM's effect (R186). -/
def takeSetparam (parameter value : Word) (c : Client) (s : State) : Effect :=
  permitted supervisorOnly c s <|
    match indexOf 18 parameter.toNat with
    | none => refuse s .outOfRange
    | some n =>
      if s.paramBad n value.toInt then refuse s .outOfRange
      else doneWith (s.writeParam n value) [parameter, value]

/-- SETPARAM. -/
def execSetparam (h : FrameHead) (parameter value : Word) (s : State) : Host.Outcome State Fault Refusal :=
  frameEvent s h 32 [parameter, value] (takeSetparam parameter value)

/-- GETPARAM's effect (R186). -/
def takeGetparam (parameter : Word) (c : Client) (s : State) : Effect :=
  permitted anyClient c s <|
    match indexOf 18 parameter.toNat with
    | none => refuse s .outOfRange
    | some n => doneWith s [parameter, s.params[n]]

/-- GETPARAM. -/
def execGetparam (h : FrameHead) (parameter : Word) (s : State) : Host.Outcome State Fault Refusal :=
  frameEvent s h 33 [parameter] (takeGetparam parameter)

/-- FRICTION's write, the lift readiness event and the takes of SEEKING legs (R105, R187). -/
def State.writeFriction (s : State) (n : Fin 8) (e : FrictionEntry) : State :=
  let written := s.setStore { s.store with friction := s.store.friction.set n e }
  written.evaluateIfWalking.seekAll

/-- FRICTION's effect (R187). -/
def takeFriction (surfaceClass coefficient derate : Word) (c : Client) (s : State) : Effect :=
  permitted supervisorOnly c s <|
    match indexOf 8 surfaceClass.toNat with
    | none => refuse s .outOfRange
    | some n =>
      if 511 < coefficient.toNat || 64 < derate.toNat then refuse s .outOfRange
      else
        doneWith (s.writeFriction n ⟨BitVec.ofNat 9 coefficient.toNat, BitVec.ofNat 7 derate.toNat⟩)
          [surfaceClass, coefficient, derate]

/-- FRICTION. -/
def execFriction (h : FrameHead) (surfaceClass coefficient derate : Word) (s : State) :
    Host.Outcome State Fault Refusal :=
  frameEvent s h 34 [surfaceClass, coefficient, derate] (takeFriction surfaceClass coefficient derate)

/-- GETFRICTION's effect (R187). -/
def takeGetfriction (surfaceClass : Word) (c : Client) (s : State) : Effect :=
  permitted anyClient c s <|
    match indexOf 8 surfaceClass.toNat with
    | none => refuse s .outOfRange
    | some n =>
      let e := s.store.friction[n]
      doneWith s [surfaceClass, e.coefficient.setWidth 16, e.derate.setWidth 16]

/-- GETFRICTION. -/
def execGetfriction (h : FrameHead) (surfaceClass : Word) (s : State) : Host.Outcome State Fault Refusal :=
  frameEvent s h 35 [surfaceClass] (takeGetfriction surfaceClass)

end Sys2Proof.Machine
end

