-- ==== Sys2Proof/Machine/TripCommands.lean ====
section
/-! DEFINITION. The trip unit's commands TERM, TRIP and TRIPSTATE and the expiry of a trip's window (chapter 8). -/

namespace Sys2Proof.Machine

/-! ### TERM (R152) -/

/-- The configuration a TERM frame carries: term number, enable, source, leg, relation; none where one is out of range
(R152 check 2). -/
def termConfig (number enable source leg relation : Word) : Option (Fin 8 × Bool × Source × Leg × Relation) :=
  match indexOf 8 number.toNat, indexOf 2 enable.toNat, sourceOf source.toNat, legOf leg,
    relationOf relation.toNat with
  | some n, some e, some src, some l, some r => some (n, e.val == 1, src, l, r)
  | _, _, _, _, _ => none

/-- A term's configuration replaced whole and evaluated against the copy of its source; the trips that use it are tested
if its truth changed (R151, R152). -/
def State.configureTerm (s : State) (n : Fin 8) (t : WatchTerm) : State :=
  let evaluated := { t with truth := t.eval (s.trips.copies.read t.source t.leg) }
  let terms := s.trips.terms.set n evaluated
  let replaced := s.setTrips { s.trips with terms := terms }
  s.recountOverflow (replaced.testTrips false (changedTerms s.trips.terms terms) (truthBits terms))

/-- TERM's effect (R152). -/
def takeTerm (number enable source leg relation threshold : Word) (c : Client) (s : State) : Effect :=
  permitted supervisorOnly c s <|
    match termConfig number enable source leg relation with
    | none => refuse s .outOfRange
    | some (n, e, src, l, r) => answer (s.configureTerm n ⟨e, src, l, r, threshold, false⟩) .done

/-- TERM. -/
def execTerm (h : FrameHead) (number enable source leg relation threshold : Word) (s : State) :
    Host.Outcome State Fault Refusal :=
  frameEvent s h 20 [number, enable, source, leg, relation, threshold]
    (takeTerm number enable source leg relation threshold)

/-! ### TRIP (R157) -/

/-- After the operation and any firing it causes, the sequencer is told whether any HOLD trip is FIRED; if none is, TRIP
leaves the set (R118, R157). -/
def State.tripReport (s : State) : State :=
  if s.trips.trips.toList.any fun t => t.state == .fired && t.action == .hold then s else s.removeReason .trip

/-- The configuration a CONFIGURE carries; none where a field is out of range (R157 check 3). Fields that the mode does
not use take their values after reset (DESIGN CHOICE, safe, log 10). -/
def tripConfig (mode action terms window : Word) : Option Trip :=
  match tripModeOf mode.toNat, tripActionOf action.toNat with
  | some .all, some a => some ⟨.all, terms.extractLsb' 0 8, 0, 0, 10, a, .disarmed, .stopped⟩
  | some .any, some a => some ⟨.any, terms.extractLsb' 0 8, 0, 0, 10, a, .disarmed, .stopped⟩
  | some .sequence, some a =>
    match indexOf 8 (terms.extractLsb' 8 8).toNat, indexOf 8 (terms.extractLsb' 0 8).toNat with
    | some f, some g =>
      if 10 ≤ window.toNat ∧ window.toNat ≤ 10000 then
        some ⟨.sequence, 0, f, g, window.toNat, a, .disarmed, .stopped⟩
      else none
    | _, _ => none
  | _, _ => none

/-- CONFIGURE (R157). -/
def configureEffect (n : Fin 4) (mode action terms window : Word) (s : State) : Effect :=
  match tripConfig mode action terms window with
  | none => refuse s .outOfRange
  | some t => answer (s.setTrip n t).tripReport .done

/-- The evaluation at ARM, which reads the term truths as they stand: an ALL or ANY trip whose combination is true fires;
a THEN trip whose first term is true is PRIMED, and fires if its second is also true (R157). -/
def State.armTrip (s : State) (n : Fin 4) : State :=
  let truths := truthBits s.trips.terms
  let t := { s.trip n with state := .armed, timer := .stopped }
  match t.mode with
  | .all | .any =>
    let armed := s.setTrip n t
    if t.combination truths then armed.fireTrip false n else armed
  | .sequence =>
    if truths.getLsbD t.first then
      let primed := s.setTrip n { t with state := .primed, timer := .running t.window }
      if truths.getLsbD t.second then primed.fireTrip false n else primed
    else s.setTrip n t

/-- ARM (R157): from DISARMED or FIRED armed and evaluated at once; from ARMED or PRIMED nothing; then the report. -/
def armEffect (n : Fin 4) (s : State) : Effect :=
  match (s.trip n).state with
  | .disarmed | .fired => answer (s.recountOverflow (s.armTrip n)).tripReport .done
  | .armed | .primed => answer s.tripReport .done

/-- DISARM (R157). -/
def disarmEffect (n : Fin 4) (s : State) : Effect :=
  answer (s.setTrip n { s.trip n with state := .disarmed, timer := .stopped }).tripReport .done

/-- TRIP's effect, by its operation word (R157). -/
def takeTrip (trip operation mode action terms window : Word) (c : Client) (s : State) : Effect :=
  permitted supervisorOnly c s <|
    match indexOf 4 trip.toNat with
    | none => refuse s .outOfRange
    | some n =>
      match operation.toNat with
      | 0 => configureEffect n mode action terms window s
      | 1 => armEffect n s
      | 2 => disarmEffect n s
      | _ => refuse s .outOfRange

/-- TRIP CONFIGURE, and TRIP with an operation outside the table (R157). -/
def execTripConfigure (h : FrameHead) (trip operation mode action terms window : Word) (s : State) :
    Host.Outcome State Fault Refusal :=
  frameEvent s h 21 [trip, operation, mode, action, terms, window] (takeTrip trip operation mode action terms window)

/-- TRIP ARM (R157). -/
def execTripArm (h : FrameHead) (trip mode action terms window : Word) (s : State) :
    Host.Outcome State Fault Refusal :=
  frameEvent s h 21 [trip, 1, mode, action, terms, window] (takeTrip trip 1 mode action terms window)

/-- TRIP DISARM (R157). -/
def execTripDisarm (h : FrameHead) (trip mode action terms window : Word) (s : State) :
    Host.Outcome State Fault Refusal :=
  frameEvent s h 21 [trip, 2, mode, action, terms, window] (takeTrip trip 2 mode action terms window)

/-! ### TRIPSTATE (R159) and the window (R155) -/

/-- TRIPSTATE's effect (R159). -/
def takeTripstate (c : Client) (s : State) : Effect := permitted anyClient c s (doneWith s (tripWords s.trips))

/-- TRIPSTATE. -/
def execTripstate (h : FrameHead) (s : State) : Host.Outcome State Fault Refusal :=
  frameEvent s h 22 [] takeTripstate

/-- TRIP_WINDOW_EXPIRY: a PRIMED trip returns to ARMED with nothing pended and no action (R155). It is taken in PRIMED
(log 4). -/
def execTripWindowExpiry (trip : Fin 4) (s : State) : Host.Outcome State Fault Refusal :=
  event s fun s =>
    if (s.trip trip).state = .primed then s.setTrip trip { s.trip trip with state := .armed, timer := .stopped }
    else s

end Sys2Proof.Machine
end

