-- ==== Sys2Proof/Machine/Frames.lean ====
section
/-! DEFINITION. A command frame taken as raw words: the command code table (11.2) from code and data words to the owner's
effect, and the arrival of a whole frame with its check word (R174). -/

namespace Sys2Proof.Machine

/-- A command's effect for the data words that its row gives it, so many of them; none for another number of words. -/
def words0 (f : Client → State → Effect) : List Word → Option (Client → State → Effect)
  | [] => some f
  | _ => none
/-- One data word. -/
def words1 (f : Word → Client → State → Effect) : List Word → Option (Client → State → Effect)
  | [a] => some (f a)
  | _ => none
/-- Two data words. -/
def words2 (f : Word → Word → Client → State → Effect) : List Word → Option (Client → State → Effect)
  | [a, b] => some (f a b)
  | _ => none
/-- Three data words. -/
def words3 (f : Word → Word → Word → Client → State → Effect) : List Word → Option (Client → State → Effect)
  | [a, b, c] => some (f a b c)
  | _ => none
/-- Four data words. -/
def words4 (f : Word → Word → Word → Word → Client → State → Effect) : List Word → Option (Client → State → Effect)
  | [a, b, c, d] => some (f a b c d)
  | _ => none
/-- Six data words. -/
def words6 (f : Word → Word → Word → Word → Word → Word → Client → State → Effect) :
    List Word → Option (Client → State → Effect)
  | [a, b, c, d, e, g] => some (f a b c d e g)
  | _ => none

/-- The effect of the command that a code and its data words spell, by the command code table (11.2). A code or a count
outside the table is malformed and has none (R175). -/
def effectOf (arrival : Lane) (code : BitVec 6) (data : List Word) : Option (Client → State → Effect) :=
  match code.toNat with
  | 1 => words4 takeSubmit data
  | 2 => words6 takeAmend data
  | 3 => words1 takeQuery data
  | 4 => words4 takeFind data
  | 5 => words1 takeRetire data
  | 6 => words6 takeRestore data
  | 7 => words3 takeRebase data
  | 8 => words2 takeReserve data
  | 9 => words1 takeCancel data
  | 10 => words1 takeQueue data
  | 12 => words2 takeAdopt data
  | 13 => words1 takeRedirect data
  | 14 => words1 takeLegstate data
  | 15 => words1 takeRelink data
  | 16 => words1 takeGait data
  | 17 => words0 takeResume data
  | 18 => words4 takePose data
  | 19 => words0 takeMargin data
  | 20 => words6 takeTerm data
  | 21 => words6 takeTrip data
  | 22 => words0 takeTripstate data
  | 24 => words3 takeAttention data
  | 25 => words0 takeVector data
  | 26 => words0 takeCondition data
  | 27 => words0 takeClearcond data
  | 28 => words0 takeStatus data
  | 29 => words0 takeLastcmd data
  | 30 => words2 (takeLane arrival) data
  | 31 => words0 takeResetCommand data
  | 32 => words2 takeSetparam data
  | 33 => words1 takeGetparam data
  | 34 => words3 takeFriction data
  | 35 => words1 takeGetfriction data
  | _ => none

/-- The arrival of a whole frame on a lane (R174): on a lane on which a response goes out it is not taken and FRAME is not
set; a frame whose check word does not match is discarded and sets FRAME; any other goes on to the station and form
tests and, if valid, to its command. -/
def State.frameArrives (s : State) (lane : Lane) (header : Word) (data : List Word) (check : Word) : State :=
  if s.sendingOn lane then s
  else if checkCode (header :: data) ≠ check then s.setFrameFlag
  else
    s.arrive (headOf lane header) (codeOf header) (countOf header) data
      ((effectOf lane (codeOf header) data).getD fun _ s => refuse s .outOfRange)

/-- COMMAND_FRAME_CHECK_FAILURE (R174 step 1). The row's frame fails its check; a frame that does not is dealt with as
R174 says (log 3). -/
def execCommandFrameCheckFailure (lane : Lane) (header : Word) (data : List Word) (check : Word) (s : State) :
    Host.Outcome State Fault Refusal :=
  event s fun s => s.frameArrives lane header data check

/-- FRAME_FOR_OTHER_STATION (R174 step 2). The row's frame names another station; a frame that does not is dealt with as
R174 says (log 3). -/
def execFrameForOtherStation (lane : Lane) (header : Word) (data : List Word) (check : Word) (s : State) :
    Host.Outcome State Fault Refusal :=
  event s fun s => s.frameArrives lane header data check

/-- MALFORMED_FRAME (R174 step 3, R175). The row's frame is malformed; a frame that is not is dealt with as R174 says
(log 3). -/
def execMalformedFrame (lane : Lane) (header : Word) (data : List Word) (check : Word) (s : State) :
    Host.Outcome State Fault Refusal :=
  event s fun s => s.frameArrives lane header data check

end Sys2Proof.Machine
end

