-- ==== Sys2Proof/Machine/LegTimers.lean ====
section
/-! DEFINITION. The events of the leg links and of the legs' timers: each is one event of the port or phase machine. An
expiry is taken while its timer runs, in the phase its rule names (log 4). Beside them the event that no row names: a waiting
report of a new front (log 9). -/

namespace Sys2Proof.Machine

/-- CONTACT_REPORT (R66). -/
def execContactReport (leg : Leg) (flags normal tangential check : Word) (s : State) :
    Host.Outcome State Fault Refusal :=
  event s fun s => s.takeReport leg flags normal tangential check

/-- ECHO_TIMER_EXPIRY (R70). -/
def execEchoTimerExpiry (leg : Leg) (s : State) : Host.Outcome State Fault Refusal :=
  event s fun s => s.echoExpiry leg

/-- LIVENESS_WINDOW_END (R73). -/
def execLivenessWindowEnd (leg : Leg) (s : State) : Host.Outcome State Fault Refusal :=
  event s fun s => s.windowEnd leg

/-- SLIP_REARM_TIMER_EXPIRY (R84). -/
def execSlipRearmTimerExpiry (leg : Leg) (s : State) : Host.Outcome State Fault Refusal :=
  event s fun s => s.rearmExpiry leg

/-- DESCENT_TIMER_EXPIRY, taken in DESCENT (R97). -/
def execDescentTimerExpiry (leg : Leg) (s : State) : Host.Outcome State Fault Refusal :=
  event s fun s =>
    if (s.leg leg).phase = .descent ∧ (s.leg leg).descentTimer.isRunning then s.missVoid leg else s

/-- SETTLE_TIMER_EXPIRY, taken in TOUCHDOWN (R98). -/
def execSettleTimerExpiry (leg : Leg) (s : State) : Host.Outcome State Fault Refusal :=
  event s fun s =>
    if (s.leg leg).phase = .touchdown ∧ (s.leg leg).settleTimer.isRunning then s.confirmStance leg else s

/-- SWING_TIMER_EXPIRY: the timer is stopped and the halt cause SWING_TIMEOUT is given (R107). -/
def execSwingTimerExpiry (leg : Leg) (s : State) : Host.Outcome State Fault Refusal :=
  event s fun s =>
    if (s.leg leg).swingTimer.isRunning then
      (s.setLeg leg { s.leg leg with swingTimer := .stopped }).haltCause .swingTimeout
    else s

/-- The event of its own in which a waiting report of a new front comes to its leg (R57, R105), the lowest-numbered leg
first. The opcode table has no row for it: a step takes it where no command waits, and idles where no report waits either
(DESIGN CHOICE, unsafe, log 9). -/
def takeWaitingReport (s : State) : Host.Outcome State Fault Refusal :=
  match Leg.all.find? s.newFronts.get with
  | none => .next s
  | some l => event s fun s => s.hearNewFront l

end Sys2Proof.Machine
end

