-- ==== Sys2Proof/Machine/StoreEvents.lean ====
section
/-! DEFINITION. The store's own passes, the expiry sweep (R36, R37) and the rebase walk (R43, R45), and the disturbance of
stored content (R18). -/

namespace Sys2Proof.Machine

/-- The index after another in a pass; none after index 39. -/
def nextIndex (i : RecordIndex) : Option RecordIndex := if h : i.val + 1 < 40 then some ⟨i.val + 1, h⟩ else none

/-! ### Expiry sweep -/

/-- A record's age: the stride counter minus the birth stride, modulo 4096 (R4). -/
def State.age (s : State) (r : FootRecord) : Nat := (s.seq.stride - r.birth).toNat

/-- The sweep's visit to a record: a CANDIDATE or SUSPECT record whose age is greater than the expiry parameter (12)
becomes FREE with reason EXPIRED (R36). -/
def State.sweepRecord (s : State) (i : RecordIndex) (r : FootRecord) : State :=
  match r.state with
  | .candidate => if s.paramNat 12 < s.age r then (s.freeRecord i .expired).recount else s
  | .suspect => if s.paramNat 12 < s.age r then s.freeRecord i .expired else s
  | .reserved _ | .target _ | .loaded _ _ => s

/-- One visit of the expiry sweep, which ends after index 39 (R36). -/
def State.sweepVisit (s : State) : State :=
  match s.store.sweep with
  | none => s
  | some i =>
    let moved := s.setStore { s.store with sweep := nextIndex i }
    match s.slot i with
    | none => moved
    | some r => moved.sweepRecord i r

/-- SWEEP_VISIT; with no sweep in flight there is no visit (log 4). -/
def execSweepVisit (s : State) : Host.Outcome State Fault Refusal := event s State.sweepVisit

/-! ### Rebase walk -/

/-- The position shifted by the walk's offsets, each axis held to −32767 to +32767, and the check code recomputed; a
candidate or suspect is shifted only where this holds nothing back (R43). -/
def shiftedContent (w : RebaseWalk) (c : StoredContent) (gen : BitVec 4) : StoredContent :=
  sealContent
    { c with
      x := BitVec.ofInt 16 (clampPosition (c.x.toInt + w.dx.toInt))
      y := BitVec.ofInt 16 (clampPosition (c.y.toInt + w.dy.toInt))
      z := BitVec.ofInt 16 (clampPosition (c.z.toInt + w.dz.toInt)) } gen

/-- The walk moved on to the next index, having retired so many records. -/
def State.walkOn (s : State) (w : RebaseWalk) (i : RecordIndex) (retired : Nat) : State :=
  s.setStore { s.store with walk := some { w with next := nextIndex i, retired := retired } }

/-- The walk's visit to a record (R43). The store recounts when a CANDIDATE is retired; the retirement of a SUSPECT
changes no CANDIDATE (R150; DEDUCED, unsafe, log 17). -/
def State.walkRecord (s : State) (w : RebaseWalk) (i : RecordIndex) (r : FootRecord) : State :=
  let shifted := (s.walkOn w i w.retired).setSlot i (some { r with content := shiftedContent w r.content (s.gen i) })
  let retired := (s.walkOn w i (w.retired + 1)).freeRecord i .outOfFrame
  match r.state with
  | .candidate => if shiftsInFrame r.content w.dx w.dy w.dz then shifted else retired.recount
  | .suspect => if shiftsInFrame r.content w.dx w.dy w.dz then shifted else retired
  | .reserved _ | .target _ | .loaded _ _ => shifted

/-- One visit of the rebase walk (R43). -/
def State.walkVisit (s : State) : State :=
  match s.store.walk with
  | none => s
  | some w =>
    match w.next with
    | none => s
    | some i =>
      match s.slot i with
      | none => s.walkOn w i w.retired
      | some r => s.walkRecord w i r

/-- REBASE_WALK_VISIT; with no walk in flight, or index 39 visited, there is no visit (log 4). -/
def execRebaseWalkVisit (s : State) : Host.Outcome State Fault Refusal := event s State.walkVisit

/-- The completion of the rebase walk, in the order of the rule's list: the walk ended, REBASE removed and lift readiness
evaluated, the current margin, the held target takes, the DONE node (R45; DEDUCED, unsafe, log 12). Where the margin's halt
leaves OFF, a SEEKING leg asks at the halt and again at the release of the held takes; after a first CHECK the second take
tests the new front in this same event, which the spec leaves open (R57, R105; DESIGN CHOICE, unsafe, log 27). -/
def State.completeWalk (s : State) (w : RebaseWalk) : State :=
  let ended := s.setStore { s.store with walk := none }
  (((ended.removeReason .rebase).computeCurrent).seekAll).pend nodeDone (.done w.retired)

/-- REBASE_WALK_COMPLETION, the event that follows the visit to index 39 (R45); before it there is none (log 4). -/
def execRebaseWalkCompletion (s : State) : Host.Outcome State Fault Refusal :=
  event s fun s =>
    match s.store.walk with
    | none => s
    | some w => if w.next.isNone then s.completeWalk w else s

/-! ### Disturbance (R18) -/

/-- STORED_CONTENT_DISTURBANCE: the covered fields and check code of a non-FREE record become the given content, which
does not verify. Content that verifies is no disturbance, and a FREE slot has no content to disturb; neither changes
anything (log 16). Nothing is told of a disturbance. -/
def execStoredContentDisturbance (index : RecordIndex) (content : StoredContent) (s : State) :
    Host.Outcome State Fault Refusal :=
  event s fun s =>
    match s.slot index with
    | none => s
    | some r => if verifies content (s.gen index) then s else s.setSlot index (some { r with content := content })

end Sys2Proof.Machine
end

