-- ==== Sys2Proof/Machine/Dispatch.lean ====
section
/-! DEFINITION. One arm for each command of the opcode table. -/

namespace Sys2Proof.Machine

def exec (i : Instr) (s : State) : Host.Outcome State Fault Refusal :=
  match i with
  | .submit h x y z classWord => Sys2Proof.Machine.execSubmit h x y z classWord s
  | .amend h handle mask x y z classWord => Sys2Proof.Machine.execAmend h handle mask x y z classWord s
  | .query h handle => Sys2Proof.Machine.execQuery h handle s
  | .find h x y radius minConfidence => Sys2Proof.Machine.execFind h x y radius minConfidence s
  | .retire h handle => Sys2Proof.Machine.execRetire h handle s
  | .restore h handle x y z classWord friction => Sys2Proof.Machine.execRestore h handle x y z classWord friction s
  | .rebase h dx dy dz => Sys2Proof.Machine.execRebase h dx dy dz s
  | .reserve h leg handle => Sys2Proof.Machine.execReserve h leg handle s
  | .cancel h handle => Sys2Proof.Machine.execCancel h handle s
  | .queue h leg => Sys2Proof.Machine.execQueue h leg s
  | .adopt h leg handle => Sys2Proof.Machine.execAdopt h leg handle s
  | .redirect h leg => Sys2Proof.Machine.execRedirect h leg s
  | .legstate h leg => Sys2Proof.Machine.execLegstate h leg s
  | .relink h leg => Sys2Proof.Machine.execRelink h leg s
  | .gaitStand h => Sys2Proof.Machine.execGaitStand h s
  | .gaitWalk h => Sys2Proof.Machine.execGaitWalk h s
  | .gaitPause h => Sys2Proof.Machine.execGaitPause h s
  | .gaitOff h => Sys2Proof.Machine.execGaitOff h s
  | .gaitHalt h => Sys2Proof.Machine.execGaitHalt h s
  | .gaitForward h => Sys2Proof.Machine.execGaitForward h s
  | .gaitBackward h => Sys2Proof.Machine.execGaitBackward h s
  | .gaitReport h mode => Sys2Proof.Machine.execGaitReport h mode s
  | .resume h => Sys2Proof.Machine.execResume h s
  | .pose h x y pitch roll => Sys2Proof.Machine.execPose h x y pitch roll s
  | .margin h => Sys2Proof.Machine.execMargin h s
  | .term h number enable source leg relation threshold => Sys2Proof.Machine.execTerm h number enable source leg relation threshold s
  | .tripConfigure h trip operation mode action terms window => Sys2Proof.Machine.execTripConfigure h trip operation mode action terms window s
  | .tripArm h trip mode action terms window => Sys2Proof.Machine.execTripArm h trip mode action terms window s
  | .tripDisarm h trip mode action terms window => Sys2Proof.Machine.execTripDisarm h trip mode action terms window s
  | .tripstate h => Sys2Proof.Machine.execTripstate h s
  | .attention h node priority flags => Sys2Proof.Machine.execAttention h node priority flags s
  | .vector h => Sys2Proof.Machine.execVector h s
  | .condition h => Sys2Proof.Machine.execCondition h s
  | .clearcond h => Sys2Proof.Machine.execClearcond h s
  | .status h => Sys2Proof.Machine.execStatus h s
  | .lastcmd h => Sys2Proof.Machine.execLastcmd h s
  | .laneShut h lane operation => Sys2Proof.Machine.execLaneShut h lane operation s
  | .laneOpen h lane => Sys2Proof.Machine.execLaneOpen h lane s
  | .reset h => Sys2Proof.Machine.execReset h s
  | .setparam h parameter value => Sys2Proof.Machine.execSetparam h parameter value s
  | .getparam h parameter => Sys2Proof.Machine.execGetparam h parameter s
  | .friction h surfaceClass coefficient derate => Sys2Proof.Machine.execFriction h surfaceClass coefficient derate s
  | .getfriction h surfaceClass => Sys2Proof.Machine.execGetfriction h surfaceClass s
  | .commandFrameCheckFailure lane header data check => Sys2Proof.Machine.execCommandFrameCheckFailure lane header data check s
  | .frameForOtherStation lane header data check => Sys2Proof.Machine.execFrameForOtherStation lane header data check s
  | .malformedFrame lane header data check => Sys2Proof.Machine.execMalformedFrame lane header data check s
  | .responseEnd => Sys2Proof.Machine.execResponseEnd s
  | .powerOnReset straps => Sys2Proof.Machine.execPowerOnReset straps s
  | .contactReport leg flags normal tangential check => Sys2Proof.Machine.execContactReport leg flags normal tangential check s
  | .echoTimerExpiry leg => Sys2Proof.Machine.execEchoTimerExpiry leg s
  | .livenessWindowEnd leg => Sys2Proof.Machine.execLivenessWindowEnd leg s
  | .slipRearmTimerExpiry leg => Sys2Proof.Machine.execSlipRearmTimerExpiry leg s
  | .descentTimerExpiry leg => Sys2Proof.Machine.execDescentTimerExpiry leg s
  | .settleTimerExpiry leg => Sys2Proof.Machine.execSettleTimerExpiry leg s
  | .swingTimerExpiry leg => Sys2Proof.Machine.execSwingTimerExpiry leg s
  | .poseTimerExpiry => Sys2Proof.Machine.execPoseTimerExpiry s
  | .tripWindowExpiry trip => Sys2Proof.Machine.execTripWindowExpiry trip s
  | .sweepVisit => Sys2Proof.Machine.execSweepVisit s
  | .rebaseWalkVisit => Sys2Proof.Machine.execRebaseWalkVisit s
  | .rebaseWalkCompletion => Sys2Proof.Machine.execRebaseWalkCompletion s
  | .lift => Sys2Proof.Machine.execLift s
  | .storedContentDisturbance index content => Sys2Proof.Machine.execStoredContentDisturbance index content s

end Sys2Proof.Machine
end

