-- ==== Sys2Proof/Safety.lean ====
section
/-! DEFINITION. The laws that the spec's rules state of the whole machine, as predicates of a state: the ATTN line, the more
flags, the halt reason, walking, DOWN links, and who holds each record. -/

namespace Sys2Proof.Safety

open Machine

/-- The ATTN line is asserted exactly when some node is pending, enabled and of priority at least 1 (R164). -/
def lineLaw (s : State) : Bool := s.attn.line == lineOf s.attn.nodes

/-- The more flag is clear whenever the node is not pending (R161). -/
def moreLaw (s : State) : Bool := s.attn.nodes.toList.all fun n => n.pending.isSome || !n.more

/-- The halt reason is none in every gait state other than HALTED, and in HALTED it names a cause (R114). -/
def haltLaw (s : State) : Bool := (s.seq.gait == .halted) == s.seq.haltReason.isSome

/-- While walking is selected the gait is WALKING when the hold reason set is empty and HOLDING when it is not (R115). -/
def walkLaw (s : State) : Bool :=
  match s.seq.gait with
  | .walking => s.seq.reasons == .empty
  | .holding => s.seq.reasons != .empty
  | .off | .standing | .stopping | .halted => true

/-- A port whose link is DOWN has no pending order, no last order kind and a stopped echo timer, and holds no slip
condition (R68, R76). -/
def downLaw (s : State) : Bool :=
  Leg.all.all fun l =>
    let p := s.port l
    p.linkUp || (p.pending.isNone && p.lastKind.isNone && p.echoTimer == .stopped && !p.slipHeld)

/-- No leg queue holds more than three handles (R47). -/
def queueLaw (s : State) : Bool := Leg.all.all fun l => (s.queue l).length ≤ 3

/-- The phases in which a leg has a stance record (R89). -/
def stands : Phase → Bool
  | .stance | .unloading => true
  | .unseen | .idle | .swing | .seeking | .descent | .touchdown | .lost => false

/-- The phases in which a leg has a target (R89). -/
def aims : Phase → Bool
  | .unloading | .swing | .descent | .touchdown => true
  | .unseen | .idle | .stance | .seeking | .lost => false

/-- Who holds what: RESERVED records stand in their owners' queues, TARGET and LOADED records are their owners' targets and
stance records, and no leg holds anything else (R5, R47, R89). -/
structure HolderLaw (s : State) : Prop where
  /-- a queue holds at most three entries -/
  short : ∀ l, (s.queue l).length ≤ 3
  /-- no record stands in a queue twice -/
  once : ∀ l, ((s.queue l).map Handle.index).Nodup
  /-- a queue's entry is the current handle of a record RESERVED for the leg -/
  queued : ∀ l h, h ∈ s.queue l → h.gen = s.gen h.index ∧ ∃ r, s.slot h.index = some r ∧ r.state = .reserved l
  /-- a stance record is the current handle of a record LOADED for the leg -/
  stood : ∀ l h, (s.leg l).stance = some h →
    h.gen = s.gen h.index ∧ ∃ r f, s.slot h.index = some r ∧ r.state = .loaded l f
  /-- a target is the current handle of a record that is TARGET for the leg -/
  aimed : ∀ l h, (s.leg l).target = some h →
    h.gen = s.gen h.index ∧ ∃ r, s.slot h.index = some r ∧ r.state = .target l
  /-- a RESERVED record stands in its owner's queue -/
  reserved : ∀ i r l, s.slot i = some r → r.state = .reserved l → s.handleOf i ∈ s.queue l
  /-- a LOADED record is its owner's stance record -/
  loaded : ∀ i r l f, s.slot i = some r → r.state = .loaded l f → (s.leg l).stance = some (s.handleOf i)
  /-- a TARGET record is its owner's target -/
  target : ∀ i r l, s.slot i = some r → r.state = .target l → (s.leg l).target = some (s.handleOf i)
  /-- a leg has a stance record in STANCE and UNLOADING and in no other phase -/
  standing : ∀ l, (s.leg l).stance.isSome = stands (s.leg l).phase
  /-- a leg has a target in UNLOADING, SWING, DESCENT and TOUCHDOWN and in no other phase -/
  aiming : ∀ l, (s.leg l).target.isSome = aims (s.leg l).phase

end Sys2Proof.Safety
end

