-- ==== Sys2Proof/Certificates/Slice0/Obligations.lean ====
section
/-! DEFINITION. The statements for the provers. A client command's statement gives the next state for a frame that the
part takes now, as the state the lane interface hands to the owner, the owner's own effect, and the answer. -/

namespace Sys2Proof.Claims

open Sys2Proof.Machine

/-! ### Words the statements share -/

/-- The command or event answers this next state. -/
def Gives (i : Instr) (s t : State) : Prop := exec i s = .next t

/-- The state with the list of orders of the last event emptied (log 15). -/
def begun (s : State) : State := { s with ordersSent := [] }

/-- A frame with this head, sent by this client to this station alone, is taken now: no response goes out on its lane,
and no reset waits for the end of a response on the other lane (R173, R174, R183). -/
structure Arrives (s : State) (h : FrameHead) (c : Client) : Prop where
  client : clientOf h.client = some c
  station : h.station = s.lanes.station
  speaks : s.lanes.station ≠ 0
  single : h.station ≠ 15
  quiet : s.sendingOn h.lane = false
  settled : ∀ r, s.lanes.inFlight = some r → r.thenReset = false

/-- The state handed to the owner: a response on the other lane is cut, ME and BROADCAST are clear and the header is
recorded (R179, R180). -/
def noted (s : State) (h : FrameHead) (code : BitVec 6) (count : BitVec 4) : State :=
  { s with
    ordersSent := []
    lanes :=
      { s.lanes with inFlight := none, me := false, broadcast := false, lastHeader := headerWord h code count } }

/-- The state handed to STATUS and LASTCMD: a response on the other lane is cut (R180, R181). -/
def watched (s : State) : State := { s with ordersSent := [], lanes := { s.lanes with inFlight := none } }

/-- The response sent: the status word as the command has left the part, the result word, the answer words, the check word
over them; not sent on a shut lane or from a silent station (R179). -/
def answered (s : State) (h : FrameHead) (code : BitVec 6) (r : Result) (words : List Word) : State :=
  if s.lanes.isShut h.lane || s.lanes.station == 0 then s
  else
    let body := s.statusWord :: resultWord code r :: words
    { s with lanes := { s.lanes with inFlight := some ⟨h.lane, body ++ [checkCode body], false⟩ } }

/-- An answer that changes nothing at the owner. -/
def told (s : State) (h : FrameHead) (code : BitVec 6) (count : BitVec 4) (r : Result) (words : List Word) : State :=
  answered (noted s h code count) h code r words

/-- The frame a client row stands for: its head, its command code and its data words (11.2). -/
def frameOf : Instr → Option (FrameHead × BitVec 6 × List Word)
  | .submit h x y z k => some (h, 1, [x, y, z, k])
  | .amend h hd m x y z k => some (h, 2, [hd, m, x, y, z, k])
  | .query h hd => some (h, 3, [hd])
  | .find h x y r m => some (h, 4, [x, y, r, m])
  | .retire h hd => some (h, 5, [hd])
  | .restore h hd x y z k f => some (h, 6, [hd, x, y, z, k, f])
  | .rebase h dx dy dz => some (h, 7, [dx, dy, dz])
  | .reserve h l hd => some (h, 8, [l, hd])
  | .cancel h hd => some (h, 9, [hd])
  | .queue h l => some (h, 10, [l])
  | .adopt h l hd => some (h, 12, [l, hd])
  | .redirect h l => some (h, 13, [l])
  | .legstate h l => some (h, 14, [l])
  | .relink h l => some (h, 15, [l])
  | .gaitStand h => some (h, 16, [0])
  | .gaitWalk h => some (h, 16, [1])
  | .gaitPause h => some (h, 16, [2])
  | .gaitOff h => some (h, 16, [3])
  | .gaitHalt h => some (h, 16, [4])
  | .gaitForward h => some (h, 16, [5])
  | .gaitBackward h => some (h, 16, [6])
  | .gaitReport h m => some (h, 16, [m])
  | .resume h => some (h, 17, [])
  | .pose h x y p r => some (h, 18, [x, y, p, r])
  | .margin h => some (h, 19, [])
  | .term h n e src l r t => some (h, 20, [n, e, src, l, r, t])
  | .tripConfigure h n o m a t w => some (h, 21, [n, o, m, a, t, w])
  | .tripArm h n m a t w => some (h, 21, [n, 1, m, a, t, w])
  | .tripDisarm h n m a t w => some (h, 21, [n, 2, m, a, t, w])
  | .tripstate h => some (h, 22, [])
  | .attention h n p f => some (h, 24, [n, p, f])
  | .vector h => some (h, 25, [])
  | .condition h => some (h, 26, [])
  | .clearcond h => some (h, 27, [])
  | .status h => some (h, 28, [])
  | .lastcmd h => some (h, 29, [])
  | .laneShut h l o => some (h, 30, [l, o])
  | .laneOpen h l => some (h, 30, [l, 1])
  | .reset h => some (h, 31, [])
  | .setparam h p v => some (h, 32, [p, v])
  | .getparam h p => some (h, 33, [p])
  | .friction h k f d => some (h, 34, [k, f, d])
  | .getfriction h k => some (h, 35, [k])
  | .commandFrameCheckFailure .. | .frameForOtherStation .. | .malformedFrame .. | .responseEnd | .powerOnReset _
  | .contactReport .. | .echoTimerExpiry _ | .livenessWindowEnd _ | .slipRearmTimerExpiry _ | .descentTimerExpiry _
  | .settleTimerExpiry _ | .swingTimerExpiry _ | .poseTimerExpiry | .tripWindowExpiry _ | .sweepVisit
  | .rebaseWalkVisit | .rebaseWalkCompletion | .lift | .storedContentDisturbance .. => none

/-- The permission table by command code (R177): PERCEPTION, PLANNER and SUPERVISOR may issue it. -/
def mayIssue (code : BitVec 6) : Client → Bool
  | .perception => code.toNat ∈ [1, 2, 3, 4, 5, 10, 14, 19, 22, 26, 28, 29, 33, 35]
  | .planner => code.toNat ∈ [1, 3, 4, 5, 8, 9, 10, 12, 13, 14, 16, 18, 19, 22, 25, 26, 28, 29, 33, 35]
  | .supervisor => true

/-- The BUSY-sensitive commands by command code (R42, R177). -/
def busySensitive (code : BitVec 6) : Bool := code.toNat ∈ [1, 2, 3, 4, 5, 6, 7, 8, 9, 12, 13, 18, 19]

/-- The two commands whose response carries the gait report with every result (R124). -/
def reportsGait (code : BitVec 6) : Bool := code.toNat ∈ [16, 17]

/-- The handle word names this record (R15): the index field is its index, the generation field is current, and the slot
holds it. -/
def Names (s : State) (w : Word) (i : RecordIndex) (r : FootRecord) : Prop :=
  handleIndex w = i.val ∧ handleGen w = s.gen i ∧ s.slot i = some r

/-- The handle word names no record (R15). -/
def NamesNone (s : State) (w : Word) : Prop := ∀ i r, ¬ Names s w i r

/-- A position word or offset that a path refuses: −32768 (R2). -/
def Lowest (w : Word) : Prop := w = 0x8000

/-- The class, slope grade or confidence field of a class word is out of range (R25). -/
def BadClassWord (w : Word) : Prop :=
  7 < (w.extractLsb' 12 4).toNat ∨ 12 < (w.extractLsb' 8 4).toNat ∨ 15 < (w.extractLsb' 0 8).toNat

/-- The record content a class word and a position describe, with this friction estimate, slip count 0 and its check code
(R7, R17, 11.3). -/
def freshContent (x y z k : Word) (friction : BitVec 9) (gen : BitVec 4) : StoredContent :=
  sealContent
    { x := x, y := y, z := z
      surfaceClass := k.extractLsb' 12 3
      slope := k.extractLsb' 8 4
      confidence := k.extractLsb' 0 4
      friction := friction
      slips := 0
      check := 0 } gen

/-- The word with these fields, each given by its lowest bit and its value; every other bit is 0 (R185, 11.1). -/
def fields (fs : List (Nat × Nat)) : Word := BitVec.ofNat 16 (fs.map fun f => f.2 * 2 ^ f.1).sum

/-- A row that carries a raw frame, with the frame's good check word (R174). -/
def RawRow (i : Instr) (lane : Lane) (header : Word) (data : List Word) : Prop :=
  let check := checkCode (header :: data)
  i = .malformedFrame lane header data check ∨ i = .frameForOtherStation lane header data check
    ∨ i = .commandFrameCheckFailure lane header data check

/-- A leg word names this leg (R185). -/
def LegWord (w : Word) (l : Leg) : Prop := w.toNat = l.number

end Sys2Proof.Claims

open Sys2Proof Sys2Proof.Machine Sys2Proof.Claims

/-! ### The step and its queue -/

/-- One step takes the command at the front of the queue and is exec of it on the state with the queue's rest. -/
def Sys2Proof.Claims.StepIsExecOfTheFront : Prop :=
  ∀ (c : Instr) (rest : List Instr) (s : State), step { s with pending := c :: rest } = exec c { s with pending := rest }

/-- On an empty queue, where no report of a new front waits, the block idles: the model's choice (logs 1 and 9). -/
def Sys2Proof.Claims.EmptyQueueIdles : Prop :=
  ∀ s : State, s.pending = [] → (∀ l, s.newFronts.get l = false) → step s = .next s

/-- A step takes the command at the front of the queue and is exec of it; on an empty queue where no report of a new front
waits the block idles, which is the model's choice (logs 1 and 9). -/
def Obligations.StepTakesFront : Prop := StepIsExecOfTheFront ∧ EmptyQueueIdles

/-- Every command and event, in every state, answers a next state in which the waiting commands are as they were. That
a reset leaves them too is the model's choice (log 19). -/
def Obligations.CommandsKeepTheQueue : Prop :=
  ∀ (c : Instr) (s : State), ∃ t, Gives c s t ∧ t.pending = s.pending

/-! ### The lane interface (chapter 10) -/

/-- A frame is not taken while a response goes out on its lane, nor when it is for another station; then nothing
changes (R174). -/
def Sys2Proof.Claims.FramesNotTakenChangeNothing : Prop :=
  ∀ (i : Instr) (h : FrameHead) (code : BitVec 6) (data : List Word) (s : State),
    frameOf i = some (h, code, data) →
      (s.sendingOn h.lane = true ∨ (h.station ≠ 15 ∧ (h.station ≠ s.lanes.station ∨ s.lanes.station = 0))) →
        Gives i s (begun s)

/-- Permission is the first check: a client that the table does not list is refused with NOT_PERMITTED, and the refusal
changes nothing at the owner (R177, R178). -/
def Sys2Proof.Claims.UnlistedClientsAreRefused : Prop :=
  ∀ (i : Instr) (h : FrameHead) (code : BitVec 6) (data : List Word) (c : Client) (s : State),
    frameOf i = some (h, code, data) → Arrives s h c → mayIssue code c = false →
      Gives i s (told s h code (BitVec.ofNat 4 data.length) .notPermitted
        (if reportsGait code then gaitReport s.seq else []))

/-- BUSY is the second check: while a rebase walk is in flight a BUSY-sensitive command of a listed client is refused with
BUSY (R42, R178). -/
def Sys2Proof.Claims.WalkMakesCommandsBusy : Prop :=
  ∀ (i : Instr) (h : FrameHead) (code : BitVec 6) (data : List Word) (c : Client) (s : State),
    frameOf i = some (h, code, data) → Arrives s h c → mayIssue code c = true → busySensitive code = true →
      s.rebasing = true → Gives i s (told s h code (BitVec.ofNat 4 data.length) .busy [])

/-- Permission is the first check of every command and BUSY the second (R42, R177, R178). -/
def Obligations.PermissionThenBusy : Prop := UnlistedClientsAreRefused ∧ WalkMakesCommandsBusy

/-- A frame for this station that arrives on one lane while the response to a RESET goes out on the other takes the
reset and is itself discarded (R183). That the waiting commands survive a reset is the model's choice (log 19). -/
def Sys2Proof.Claims.CutOfResetResponseResets : Prop :=
  ∀ (i : Instr) (h : FrameHead) (code : BitVec 6) (data : List Word) (s : State) (r : Response),
    frameOf i = some (h, code, data) → s.lanes.inFlight = some r → r.thenReset = true → r.lane ≠ h.lane →
      (h.station = 15 ∨ (h.station = s.lanes.station ∧ s.lanes.station ≠ 0)) →
        Gives i s { State.resetWith s.lanes.straps with pending := s.pending }

/-- A raw frame with a good check word for this station, malformed or not, that arrives on one lane while the response to a
RESET goes out on the other takes the reset and is itself discarded (R180, R183). That a raw frame row takes a frame of any
form is the model's reading (log 3), and that the waiting commands survive a reset its choice (log 19). -/
def Sys2Proof.Claims.RawCutOfResetResponseResets : Prop :=
  ∀ (i : Instr) (lane : Lane) (header : Word) (data : List Word) (s : State) (r : Response),
    RawRow i lane header data → s.lanes.inFlight = some r → r.thenReset = true → r.lane ≠ lane →
      (header.extractLsb' 12 4 = 15#4 ∨ (header.extractLsb' 12 4 = s.lanes.station ∧ s.lanes.station ≠ 0)) →
        Gives i s { State.resetWith s.lanes.straps with pending := s.pending }

/-- A frame on a busy lane or for another station changes nothing; one that cuts a RESET's response, malformed or not, takes
the reset and is itself discarded (R174, R180, R183). -/
def Obligations.FramesNotTakenAsCommands : Prop :=
  FramesNotTakenChangeNothing ∧ CutOfResetResponseResets ∧ RawCutOfResetResponseResets

/-- STATUS answers DONE and no words; LASTCMD answers the last command header. Both leave ME, BROADCAST and that header as
they stand (R181). -/
def Sys2Proof.Claims.StatusAndLastcmdOnlyRead : Prop :=
  ∀ (h : FrameHead) (c : Client) (s : State), Arrives s h c →
    Gives (.status h) s (answered (watched s) h 28 .done [])
      ∧ Gives (.lastcmd h) s (answered (watched s) h 29 .done [s.lanes.lastHeader])

/-- The transmitter of a lane set. -/
def Sys2Proof.Claims.withShut (s : State) (l : Lane) (shut : Bool) : State :=
  match l with
  | .a => { s with lanes := { s.lanes with shutA := shut } }
  | .b => { s with lanes := { s.lanes with shutB := shut } }

/-- LANE from SUPERVISOR: an operation or lane outside its range, the arrival lane named, or a SHUT from a shut lane is
refused; else the other lane's transmitter becomes shut or open and the answer is the shut word after it (R182). -/
def Sys2Proof.Claims.LaneShutsAndOpensTheOther : Prop :=
  ∀ (h : FrameHead) (s : State) (l : Lane) (lane operation : Word), Arrives s h .supervisor →
    ((1 < lane.toNat ∨ 1 < operation.toNat) →
        Gives (.laneShut h lane operation) s (told s h 30 2 .outOfRange []))
      ∧ (1 < lane.toNat → Gives (.laneOpen h lane) s (told s h 30 2 .outOfRange []))
      ∧ (laneOf lane = some l →
          (l = h.lane →
            Gives (.laneShut h lane 0) s (told s h 30 2 .wrongState [])
              ∧ Gives (.laneOpen h lane) s (told s h 30 2 .wrongState []))
          ∧ (l ≠ h.lane →
              Gives (.laneOpen h lane) s
                (answered (withShut (noted s h 30 2) l false) h 30 .done [(withShut s l false).shutWord])
              ∧ (s.lanes.isShut h.lane = true → Gives (.laneShut h lane 0) s (told s h 30 2 .wrongState []))
              ∧ (s.lanes.isShut h.lane = false →
                  Gives (.laneShut h lane 0) s
                    (answered (withShut (noted s h 30 2) l true) h 30 .done [(withShut s l true).shutWord]))))

/-- The status word's fields: station 15–12, ME 11, ATTN 10, BUSY 9 while a rebase walk is in flight, HALTED 8 in that gait,
LEG_FAULT 7 with a leg LOST or a joint fault present, BROADCAST 6 (R168, 11.2). -/
def Sys2Proof.Claims.StatusWordShowsTheMachine : Prop :=
  ∀ s : State, ∃ fault : Bool,
    (fault = true ↔ ∃ l, (s.leg l).phase = .lost ∨ (s.port l).jointFault = true)
    ∧ s.statusWord = fields
        [(12, s.lanes.station.toNat), (11, s.lanes.me.toNat), (10, s.attn.line.toNat), (9, s.store.walk.isSome.toNat),
          (8, if s.seq.gait = .halted then 1 else 0), (7, fault.toNat), (6, s.lanes.broadcast.toNat)]

/-- The header word: station 15–12, client 11–10, code 9–4, data count 3–0. The result word: code 13–8, result 3–0, the
results numbered 0 to 13. The shut word: lane A 0, lane B 1 (R178, 11.2, 11.4). -/
def Sys2Proof.Claims.FrameWordsHoldTheirFields : Prop :=
  ∀ (h : FrameHead) (code : BitVec 6) (count : BitVec 4) (r : Result) (s : State),
    let number := [Result.done, .busy, .notPermitted, .noRecord, .wrongState, .inUse, .full, .empty, .outOfRange,
      .notAdmissible, .tooClose, .checkFailed, .dequeued, .notLoaded].idxOf r
    headerWord h code count = fields [(12, h.station.toNat), (10, h.client.toNat), (4, code.toNat), (0, count.toNat)]
    ∧ resultWord code r = fields [(8, code.toNat), (0, number)]
    ∧ s.shutWord = fields [(0, s.lanes.shutA.toNat), (1, s.lanes.shutB.toNat)]

/-- STATUS, LASTCMD and LANE, and what the status word and the words of every frame hold (R168, R181, R182, 11.2). -/
def Obligations.LaneInterfaceCommands : Prop :=
  StatusAndLastcmdOnlyRead ∧ LaneShutsAndOpensTheOther ∧ StatusWordShowsTheMachine ∧ FrameWordsHoldTheirFields

/-- RESET from SUPERVISOR: on an open lane its DONE response goes out and the reset waits for its end; on a shut lane
the reset is taken at once (R183). That the waiting commands survive a reset is the model's choice (log 19). -/
def Sys2Proof.Claims.ResetFollowsItsResponse : Prop :=
  ∀ (h : FrameHead) (s : State), Arrives s h .supervisor →
    (s.lanes.isShut h.lane = true →
        Gives (.reset h) s { State.resetWith s.lanes.straps with pending := s.pending })
      ∧ (s.lanes.isShut h.lane = false →
          let n := noted s h 31 0
          let body := [n.statusWord, resultWord 31 .done]
          Gives (.reset h) s
            { n with lanes := { n.lanes with inFlight := some ⟨h.lane, body ++ [checkCode body], true⟩ } })

/-- At the end of a response none is in flight; at the end of a RESET's response the reset is taken; with none in
flight there is no end (R179, R183). That there is no end with none in flight is the model's choice (log 4), and that
the waiting commands survive a reset (log 19). -/
def Sys2Proof.Claims.ResponseEnds : Prop :=
  ∀ s : State,
    (s.lanes.inFlight = none → Gives .responseEnd s (begun s))
      ∧ ∀ r, s.lanes.inFlight = some r →
          (r.thenReset = false → Gives .responseEnd s { begun s with lanes := { s.lanes with inFlight := none } })
          ∧ (r.thenReset = true →
              Gives .responseEnd s { State.resetWith s.lanes.straps with pending := s.pending })

/-- A power-on reset leaves the state after reset, with the station address sampled from the straps and 15 taken as 0
(R173, R183). That the waiting commands survive a reset is the model's choice (log 19). -/
def Sys2Proof.Claims.PowerOnResetLeavesResetState : Prop :=
  ∀ (straps : BitVec 4) (s : State),
    ∃ t, Gives (.powerOnReset straps) s t ∧ t = { State.resetWith straps with pending := s.pending }
      ∧ t.lanes.station = (if straps = 15 then 0 else straps)

/-- RESET, the end of a response and the power-on reset (R173, R179, R183). -/
def Obligations.ResetsAreTakenWhole : Prop := ResetFollowsItsResponse ∧ ResponseEnds ∧ PowerOnResetLeavesResetState

/-- A frame with a bad check word is discarded and sets FRAME and nothing else, whatever station it names; on a lane on
which a response goes out it sets nothing (R174). -/
def Sys2Proof.Claims.DamagedFrameSetsFrame : Prop :=
  ∀ (lane : Lane) (header : Word) (data : List Word) (check : Word) (s : State),
    checkCode (header :: data) ≠ check →
      (s.sendingOn lane = false →
        Gives (.commandFrameCheckFailure lane header data check) s
          { begun s with attn := { s.attn with frameFlag := true } })
      ∧ (s.sendingOn lane = true → Gives (.commandFrameCheckFailure lane header data check) s (begun s))

/-- A frame with a good check word whose station field is neither 15 nor this station's address changes nothing
(R174). -/
def Sys2Proof.Claims.OtherStationsFrameIsIgnored : Prop :=
  ∀ (lane : Lane) (header : Word) (data : List Word) (s : State),
    header.extractLsb' 12 4 ≠ 15#4 →
      (header.extractLsb' 12 4 ≠ s.lanes.station ∨ s.lanes.station = 0) →
        Gives (.frameForOtherStation lane header data (checkCode (header :: data))) s (begun s)

/-- A malformed frame for this station, on a lane that carries no response, cuts a response on the other lane, sets ME and
does nothing else (R175, R180). That a frame with more or fewer data words than its header counts is malformed is the
model's choice (log 26). -/
def Sys2Proof.Claims.MalformedFrameSetsMe : Prop :=
  ∀ (lane : Lane) (header : Word) (data : List Word) (s : State),
    s.sendingOn lane = false → (∀ r, s.lanes.inFlight = some r → r.thenReset = false) →
    (header.extractLsb' 12 4 = 15#4 ∨ (header.extractLsb' 12 4 = s.lanes.station ∧ s.lanes.station ≠ 0)) →
    (header.extractLsb' 10 2 = 0#2
      ∨ commandCount (header.extractLsb' 4 6) ≠ some (header.extractLsb' 0 4).toNat
      ∨ data.length ≠ (header.extractLsb' 0 4).toNat
      ∨ (header.extractLsb' 12 4 = 15#4 ∧ header.extractLsb' 4 6 ≠ 18#6
          ∧ (header.extractLsb' 4 6 ≠ 16#6 ∨ data.head? ≠ some 4))) →
      Gives (.malformedFrame lane header data (checkCode (header :: data))) s
        { begun s with lanes := { s.lanes with inFlight := none, me := true } }

/-- A command row whose frame is malformed, by client field 0 or as a broadcast of anything but POSE and GAIT HALT, does what
a malformed frame does: it cuts a response on the other lane and sets ME, and nothing else changes (R175, R180). -/
def Sys2Proof.Claims.MalformedCommandSetsMe : Prop :=
  ∀ (i : Instr) (h : FrameHead) (code : BitVec 6) (data : List Word) (s : State),
    frameOf i = some (h, code, data) →
    s.sendingOn h.lane = false → (∀ r, s.lanes.inFlight = some r → r.thenReset = false) →
    (h.station = 15 ∨ (h.station = s.lanes.station ∧ s.lanes.station ≠ 0)) →
    (h.client = 0 ∨ (h.station = 15 ∧ code ≠ 18 ∧ (code ≠ 16 ∨ data.head? ≠ some 4))) →
      Gives i s { begun s with lanes := { s.lanes with inFlight := none, me := true } }

/-- A damaged frame, a frame for another station and a malformed frame, raw or a command's (R174, R175, R180). -/
def Obligations.RawFramesAreSortedOut : Prop :=
  DamagedFrameSetsFrame ∧ OtherStationsFrameIsIgnored ∧ MalformedFrameSetsMe ∧ MalformedCommandSetsMe

/-- A broadcast of POSE or of GAIT HALT is taken by every station, a silent one too: ME clear, BROADCAST set, the header
recorded, the owner's effect, and no response (R176, R129, R134). -/
def Obligations.BroadcastsAreTakenUnanswered : Prop :=
  ∀ (h : FrameHead) (c : Client) (x y pitch roll : Word) (s : State),
    clientOf h.client = some c → h.station = 15 → s.sendingOn h.lane = false →
    (∀ r, s.lanes.inFlight = some r → r.thenReset = false) →
      (let n := noted s h 16 1
       let b := { n with lanes := { n.lanes with broadcast := true } }
       Gives (.gaitHalt h) s (if c = .perception then b else b.haltCause .client))
      ∧ (let n := noted s h 18 4
         let b := { n with lanes := { n.lanes with broadcast := true } }
         Gives (.pose h x y pitch roll) s
          (if c = .perception ∨ s.rebasing = true ∨ x = 0x8000 ∨ y = 0x8000
              ∨ pitch.toInt < -900 ∨ 900 < pitch.toInt ∨ roll.toInt < -900 ∨ 900 < roll.toInt then b
           else b.acceptPose x y pitch roll))

/-! ### Foothold records and the store (chapters 1 and 2) -/

/-- The change to FREE: the fields cease, the generation of the index advances by one and no other index changes; for
every reason but CLIENT the RECORD node takes the handle as it was and the reason (R6, R16, R34). -/
def Sys2Proof.Claims.FreeingForgetsTheRecord : Prop :=
  ∀ (s : State) (i : RecordIndex) (reason : RetireReason),
    (s.slot i = none → s.freeRecord i reason = s)
    ∧ ∀ r, s.slot i = some r →
        let freed : State :=
          { s with store := { s.store with slots := s.store.slots.set i none, gens := s.store.gens.set i (s.gen i + 1) } }
        s.freeRecord i .client = freed
        ∧ (reason ≠ .client → s.freeRecord i reason = freed.pend nodeRecord (.record ⟨i, s.gen i⟩ reason))

/-- Each change of a record's state sets the stride tag and, but for the vacate to CANDIDATE, nothing else besides the
state: RESERVE, target take, hand-back, cancellation, release of a target, stance confirmation, ADOPT, bounce and loss
(R4, R5, R8, R9, R10, R12). -/
def Sys2Proof.Claims.TransitionsSetTheTagAlone : Prop :=
  ∀ (r : FootRecord) (l : Leg) (stride : BitVec 12),
    (r.state = .candidate → r.reserveFor stride l = { r with state := .reserved l, tag := stride })
    ∧ (r.state = .reserved l → r.takeAsTarget stride l = { r with state := .target l, tag := stride })
    ∧ (r.state = .target l → r.handBack stride l = { r with state := .reserved l, tag := stride })
    ∧ (r.state = .reserved l → r.unreserve stride l = { r with state := .candidate, tag := stride })
    ∧ (r.state = .target l → r.releaseTarget stride l = { r with state := .candidate, tag := stride })
    ∧ (r.state = .target l → r.confirm stride l = { r with state := .loaded l false, tag := stride })
    ∧ (r.state = .candidate → r.adoptFor stride l = { r with state := .loaded l false, tag := stride })
    ∧ (r.state = .target l → r.suspectTarget stride l = { r with state := .suspect, tag := stride })
    ∧ (∀ f, r.state = .loaded l f → r.suspectLoaded stride = { r with state := .suspect, tag := stride })

/-- A slip charged: the count adds one and holds at 7, the estimate falls by the derate step and stops at 0, the check code
is recomputed, nothing else changes (R3, R17). The vacate of a LOADED record: to CANDIDATE with the bonus held at 15 and
both strides set where its slip count is 0, to SUSPECT with its content kept where it is not, to FREE where its
check-failed flag is set (R11, R13). -/
def Sys2Proof.Claims.SlipsAndVacatesMarkTheRecord : Prop :=
  ∀ (s : State) (i : RecordIndex) (r : FootRecord) (l : Leg), s.slot i = some r →
    (let c := (s.chargeSlip i r).content
     c = { r.content with slips := c.slips, friction := c.friction, check := c.check }
      ∧ c.slips.toNat = min 7 (r.content.slips.toNat + 1)
      ∧ c.friction.toNat = r.content.friction.toNat - s.store.friction[r.content.surfaceClass.toFin].derate.toNat
      ∧ c.check = checkCode (coveredWords c (s.gen i))
      ∧ s.chargeSlip i r = { r with content := c })
    ∧ (r.state = .loaded l true → s.vacate i = s.freeRecord i .check)
    ∧ (r.state = .loaded l false → r.content.slips = 0 →
        let raised := { r.content with
          confidence := BitVec.ofNat 4 (min 15 (r.content.confidence.toNat + s.paramNat 17)) }
        s.vacate i = s.setSlot i (some
          { state := .candidate
            content := { raised with check := checkCode (coveredWords raised (s.gen i)) }
            origin := r.origin
            birth := s.seq.stride
            tag := s.seq.stride }))
    ∧ (r.state = .loaded l false → r.content.slips ≠ 0 →
        s.vacate i = s.setSlot i (some { r with state := .suspect, tag := s.seq.stride }))

/-- What each change of a record does to its fields (R3 to R13, R16, R17). -/
def Obligations.RecordsChangeByTheRules : Prop :=
  FreeingForgetsTheRecord ∧ TransitionsSetTheTagAlone ∧ SlipsAndVacatesMarkTheRecord

/-- A check failure by the record's state: the CHECK flag is set and CANDIDATE, SUSPECT, RESERVED and TARGET become
FREE with reason CHECK; a RESERVED record leaves its queue; a LOADED record stays, its flag set, the RECORD node
pending, and the gait halts with cause CHECK (R20, R56, R108, R143). The order of the notices is the model's choice
(log 6). -/
def Sys2Proof.Claims.CheckFailureByState : Prop :=
  ∀ (s : State) (i : RecordIndex) (r : FootRecord) (o : Leg), s.slot i = some r →
    let marked : State := { s with attn := { s.attn with checkFlag := true } }
    (r.state = .candidate → s.failRecord i r = (marked.freeRecord i .check).recount)
    ∧ (r.state = .suspect → s.failRecord i r = marked.freeRecord i .check)
    ∧ (r.state = .reserved o → s.failRecord i r =
        ((marked.setQueue o ((s.queue o).filter fun h => h.index ≠ i)).freeRecord i .check).reportQueue o (s.queue o)
          false)
    ∧ (r.state = .target o → (s.leg o).phase = .unloading → s.failRecord i r =
        ((marked.freeRecord i .check).backToStance o).withdrawalTold)
    ∧ (r.state = .target o → ((s.leg o).phase = .swing ∨ (s.leg o).phase = .descent ∨ (s.leg o).phase = .touchdown) →
        s.failRecord i r = ((marked.freeRecord i .check).enterSeeking o).seekAfterEntry o)
    ∧ (r.state = .loaded o false → s.failRecord i r =
        ((((marked.setSlot i (some { r with state := .loaded o true })).pend nodeRecord
          (.record ⟨i, s.gen i⟩ .check)).haltCause .check).computeCurrent))
    ∧ (r.state = .loaded o true → s.failRecord i r = s)

/-- In every command and event but one that leaves the whole state of a reset, an index's generation advances by one when its
record becomes FREE and at no other time, and a record that stays keeps its origin (R2, R6, R16). -/
def Obligations.GenerationsAdvanceAtFreeAlone : Prop :=
  ∀ (c : Instr) (s t : State), Gives c s t →
    (∃ straps, t = { State.resetWith straps with pending := s.pending })
    ∨ ∀ i : RecordIndex,
        t.gen i = (if s.slot i ≠ none ∧ t.slot i = none then s.gen i + 1 else s.gen i)
        ∧ ∀ r r', s.slot i = some r → t.slot i = some r' → r'.origin = r.origin

/-- SUBMIT creates a CANDIDATE at the lowest-numbered FREE index and answers its handle; it refuses words out of range and
a full store (R7, R25, R26). -/
def Sys2Proof.Claims.SubmitCreatesACandidate : Prop :=
  ∀ (h : FrameHead) (c : Client) (s : State) (x y z k : Word), Arrives s h c → s.rebasing = false →
    let bad := Lowest x ∨ Lowest y ∨ Lowest z ∨ BadClassWord k
    (bad → Gives (.submit h x y z k) s (told s h 1 4 .outOfRange []))
    ∧ (¬bad → (∀ i, s.slot i ≠ none) → Gives (.submit h x y z k) s (told s h 1 4 .full []))
    ∧ (¬bad → ∀ i, s.slot i = none → (∀ j, j < i → s.slot j ≠ none) →
        let r : FootRecord :=
          { state := .candidate
            content := freshContent x y z k s.store.friction[(k.extractLsb' 12 3).toFin].coefficient (s.gen i)
            origin := c
            birth := s.seq.stride
            tag := s.seq.stride }
        Gives (.submit h x y z k) s
          (answered ((noted s h 1 4).setSlot i (some r)).recount h 1 .done [(⟨i, s.gen i⟩ : Handle).word]))

/-- The content that AMEND leaves: each selected field from its word; the estimate from the class coefficient in force
where CLASS or CLEAR_SLIPS is selected; the slip count 0 where CLEAR_SLIPS is; the check code over the result (R3, R14,
R28, 11.3). -/
def Sys2Proof.Claims.amended (s : State) (mask x y z k : Word) (c : StoredContent) (gen : BitVec 4) : StoredContent :=
  let sel (n : Nat) : Bool := mask.getLsbD n
  let cls := if sel 1 then k.extractLsb' 12 3 else c.surfaceClass
  sealContent
    { x := if sel 0 then x else c.x
      y := if sel 0 then y else c.y
      z := if sel 0 then z else c.z
      surfaceClass := cls
      slope := if sel 2 then k.extractLsb' 8 4 else c.slope
      confidence := if sel 3 then k.extractLsb' 0 4 else c.confidence
      friction := if sel 1 || sel 4 then s.store.friction[cls.toFin].coefficient else c.friction
      slips := if sel 4 then 0 else c.slips
      check := 0 } gen

/-- AMEND of a listed client with its words in range: the checks by the record's state, then the selected fields written.
A SUSPECT record whose slips are cleared becomes CANDIDATE; a RESERVED record that fails the slope or confidence test
leaves its queue for CANDIDATE with DEQUEUED (R14, R27, R28, R29). A mask that selects nothing changes no record; of a
RESERVED record it is still a change of its queue that is reported, and of a CANDIDATE one it recounts (R48, R150). That it
is not tested by slope and confidence is the model's reading (log 21), and the report before the recount, where a record is
dequeued, its order (log 6). -/
def Obligations.AmendChangesTheSelectedFields : Prop :=
  ∀ (h : FrameHead) (c : Client) (s : State) (handle mask x y z k : Word), Arrives s h c → c ≠ .planner →
    s.rebasing = false →
    let n := noted s h 2 6
    let give := Gives (.amend h handle mask x y z k) s
    let sel (j : Nat) := mask.getLsbD j = true
    let bad := (sel 0 ∧ (Lowest x ∨ Lowest y ∨ Lowest z)) ∨ (sel 1 ∧ 7 < (k.extractLsb' 12 4).toNat)
      ∨ (sel 2 ∧ 12 < (k.extractLsb' 8 4).toNat) ∨ (sel 3 ∧ 15 < (k.extractLsb' 0 8).toNat)
    (bad → give (told s h 2 6 .outOfRange []))
    ∧ (¬bad → NamesNone s handle → give (told s h 2 6 .noRecord []))
    ∧ (¬bad → ∀ i r, Names s handle i r →
        let content := amended s mask x y z k r.content (s.gen i)
        let nothing := ¬sel 0 ∧ ¬sel 1 ∧ ¬sel 2 ∧ ¬sel 3 ∧ ¬sel 4
        (∀ o, r.state = .target o → give (told s h 2 6 .inUse []))
        ∧ (∀ o f, r.state = .loaded o f → give (told s h 2 6 .inUse []))
        ∧ (r.state = .candidate → sel 4 → give (told s h 2 6 .wrongState []))
        ∧ (∀ o, r.state = .reserved o → (sel 0 ∨ sel 4) → give (told s h 2 6 .wrongState []))
        ∧ (nothing → r.state = .suspect → give (told s h 2 6 .done []))
        ∧ (nothing → r.state = .candidate → give (answered n.recount h 2 .done []))
        ∧ (∀ o, nothing → r.state = .reserved o →
            give (answered (n.reportQueue o (s.queue o) ((s.queue o).head?.map Handle.index == some i)) h 2 .done []))
        ∧ (¬nothing → ¬sel 4 → r.state = .candidate →
            give (answered (n.setSlot i (some { r with content := content })).recount h 2 .done []))
        ∧ (¬nothing → ¬sel 4 → r.state = .suspect →
            give (answered (n.setSlot i (some { r with content := content })) h 2 .done []))
        ∧ (sel 4 → r.state = .suspect →
            give (answered (n.setSlot i (some { r with state := .candidate, tag := s.seq.stride, content := content })).recount
              h 2 .done []))
        ∧ (∀ o, ¬nothing → ¬sel 0 → ¬sel 4 → r.state = .reserved o →
            (slopePasses content = true ∧ s.param 13 ≤ (content.confidence.toNat : Int) →
              give (answered ((n.setSlot i (some { r with content := content })).reportQueue o (s.queue o)
                ((s.queue o).head?.map Handle.index == some i)) h 2 .done []))
            ∧ (slopePasses content = false ∨ (content.confidence.toNat : Int) < s.param 13 →
              give (answered (((n.setQueue o ((s.queue o).filter fun q => q.index ≠ i)).setSlot i
                (some { r with state := .candidate, tag := s.seq.stride, content := content })).reportQueue o (s.queue o)
                  false).recount h 2 .dequeued []))))

/-- QUERY: the ten record words of a record that verifies; CHECK_FAILED of one that does not, with the failure's whole
outcome; CHECK_FAILED and nothing else of a LOADED record whose flag is set (R20, R30). -/
def Sys2Proof.Claims.QueryReadsOrFailsTheRecord : Prop :=
  ∀ (h : FrameHead) (c : Client) (s : State) (handle : Word), Arrives s h c → s.rebasing = false →
    (NamesNone s handle → Gives (.query h handle) s (told s h 3 1 .noRecord []))
    ∧ ∀ i r, Names s handle i r →
        ((∃ o, r.state = .loaded o true) → Gives (.query h handle) s (told s h 3 1 .checkFailed []))
        ∧ ((∀ o, r.state ≠ .loaded o true) →
            (checkCode (coveredWords r.content (s.gen i)) = r.content.check →
              Gives (.query h handle) s (told s h 3 1 .done (recordWords ⟨i, s.gen i⟩ r)))
            ∧ (checkCode (coveredWords r.content (s.gen i)) ≠ r.content.check →
              Gives (.query h handle) s (answered ((noted s h 3 1).failRecord i r) h 3 .checkFailed [])))

/-- QUERY, and the outcome of a check failure in each state of a record (R20, R30). -/
def Obligations.QueryAndCheckFailures : Prop := CheckFailureByState ∧ QueryReadsOrFailsTheRecord

/-- A record qualifies for FIND at this distance: CANDIDATE, within the radius, passing the slope and confidence tests and
the command's own confidence (R31). -/
def Sys2Proof.Claims.Qualifies (s : State) (x y radius least : Word) (i : RecordIndex) (d : Nat) : Prop :=
  ∃ r, s.slot i = some r ∧ r.state = .candidate ∧ slopePasses r.content = true
    ∧ s.param 13 ≤ (r.content.confidence.toNat : Int) ∧ least.toNat ≤ r.content.confidence.toNat
    ∧ d = max (r.content.x.toInt - x.toInt).natAbs (r.content.y.toInt - y.toInt).natAbs ∧ d ≤ radius.toNat

/-- The record at an index verifies (R19). -/
def Sys2Proof.Claims.Verifies (s : State) (i : RecordIndex) : Prop :=
  ∃ r, s.slot i = some r ∧ checkCode (coveredWords r.content (s.gen i)) = r.content.check

/-- The nearest qualifying record and its distance, the lowest index among equals (R32). -/
def Sys2Proof.Claims.Nearest (s : State) (x y radius least : Word) (i : RecordIndex) (d : Nat) : Prop :=
  Qualifies s x y radius least i d ∧ ∀ j e, Qualifies s x y radius least j e → d < e ∨ (d = e ∧ i ≤ j)

/-- The check failure of a record that becomes FREE: the slot FREE with its generation advanced, CHECK set, and the RECORD
node given the handle as it was with reason CHECK (R6, R20). -/
def Sys2Proof.Claims.freedByCheck (s : State) (i : RecordIndex) : State :=
  ({ s with
    store := { s.store with slots := s.store.slots.set i none, gens := s.store.gens.set i (s.gen i + 1) }
    attn := { s.attn with checkFlag := true } } : State).pend nodeRecord (.record ⟨i, s.gen i⟩ .check)

/-- The search goes from one state to another over the records that it finds failing, in their order: each is the nearest
that qualifies when it is chosen, fails its check, and becomes FREE with reason CHECK (R32). -/
def Sys2Proof.Claims.SearchFrees (x y radius least : Word) : State → List RecordIndex → State → Prop
  | s, [], t => t = s
  | s, i :: more, t =>
    (∃ d, Nearest s x y radius least i d) ∧ ¬Verifies s i ∧ SearchFrees x y radius least (freedByCheck s i) more t

/-- FIND answers the nearest qualifying record, the lowest index among equals, where that record verifies, and NONE where
none qualifies. A nearest record that fails its check becomes FREE with reason CHECK, and the search goes on with what
remains until a record verifies or none is left; then the answer is that record or NONE (R20, R31, R32). That the
candidates are recounted once after the search is the model's choice (log 7). -/
def Obligations.FindAnswersTheNearest : Prop :=
  ∀ (h : FrameHead) (c : Client) (s : State) (x y radius least : Word), Arrives s h c → s.rebasing = false →
    let bad := Lowest x ∨ Lowest y ∨ radius.toNat < 1 ∨ 2000 < radius.toNat ∨ 15 < least.toNat
    let give := Gives (.find h x y radius least) s
    (bad → give (told s h 4 4 .outOfRange []))
    ∧ (¬bad → (∀ i d, ¬Qualifies s x y radius least i d) → give (told s h 4 4 .done [0x03F0, 0]))
    ∧ (¬bad → ∀ i d, Nearest s x y radius least i d → Verifies s i →
        give (told s h 4 4 .done [(⟨i, s.gen i⟩ : Handle).word, BitVec.ofNat 16 d]))
    ∧ (¬bad → ∃ failed t, SearchFrees x y radius least (noted s h 4 4) failed t
        ∧ let counted := if failed = [] then t else t.recount
          ((∀ i d, ¬Qualifies t x y radius least i d) ∧ give (answered counted h 4 .done [0x03F0, 0]))
          ∨ ∃ i d, Nearest t x y radius least i d ∧ Verifies t i
              ∧ give (answered counted h 4 .done [(⟨i, t.gen i⟩ : Handle).word, BitVec.ofNat 16 d]))

/-- RETIRE: a CANDIDATE or SUSPECT record becomes FREE for every client; a RESERVED one leaves its queue and becomes FREE
for PLANNER and SUPERVISOR and is refused to PERCEPTION; a TARGET or LOADED one is IN_USE (R33). -/
def Sys2Proof.Claims.RetireFreesUnheldRecords : Prop :=
  ∀ (h : FrameHead) (c : Client) (s : State) (handle : Word), Arrives s h c → s.rebasing = false →
    let n := noted s h 5 1
    let give := Gives (.retire h handle) s
    (NamesNone s handle → give (told s h 5 1 .noRecord []))
    ∧ ∀ i r, Names s handle i r →
        (r.state = .candidate → give (answered (n.freeRecord i .client).recount h 5 .done []))
        ∧ (r.state = .suspect → give (answered (n.freeRecord i .client) h 5 .done []))
        ∧ (∀ o, r.state = .reserved o →
            (c = .perception → give (told s h 5 1 .notPermitted []))
            ∧ (c ≠ .perception → give (answered
                (((n.setQueue o ((s.queue o).filter fun q => q.index ≠ i)).freeRecord i .client).reportQueue o (s.queue o)
                  false) h 5 .done [])))
        ∧ (∀ o, r.state = .target o → give (told s h 5 1 .inUse []))
        ∧ (∀ o f, r.state = .loaded o f → give (told s h 5 1 .inUse []))

/-- SUBMIT and RETIRE (R7, R25, R26, R33). -/
def Obligations.SubmitAndRetire : Prop := SubmitCreatesACandidate ∧ RetireFreesUnheldRecords

/-- RESTORE in HALTED of a LOADED record whose check-failed flag is set: position, class, slope, confidence and estimate
from the command, the slip count kept, the flag clear, the check code recomputed, then the current margin; otherwise the
checks in their order (R39). -/
def Obligations.RestoreRewritesAFailedStanceRecord : Prop :=
  ∀ (h : FrameHead) (s : State) (handle x y z k friction : Word), Arrives s h .supervisor → s.rebasing = false →
    let bad := Lowest x ∨ Lowest y ∨ Lowest z ∨ BadClassWord k ∨ 511 < friction.toNat
    let give := Gives (.restore h handle x y z k friction) s
    (bad → give (told s h 6 6 .outOfRange []))
    ∧ (¬bad → NamesNone s handle → give (told s h 6 6 .noRecord []))
    ∧ (¬bad → ∀ i r, Names s handle i r →
        (s.seq.gait ≠ .halted ∨ (∀ o, r.state ≠ .loaded o true) → give (told s h 6 6 .wrongState []))
        ∧ (∀ o, s.seq.gait = .halted → r.state = .loaded o true →
            let content :=
              { freshContent x y z k (friction.extractLsb' 0 9) (s.gen i) with slips := r.content.slips }
            give (answered (((noted s h 6 6).setSlot i (some
              { r with
                state := .loaded o false
                content := { content with check := checkCode (coveredWords content (s.gen i)) } })).computeCurrent) h 6
              .done [])))

/-- REBASE: the checks in their order, then the walk at index 0 with its offsets, the reason REBASE, and a held pose's CoM
shifted and held to range (R40, R41, R136). -/
def Obligations.RebaseStartsTheWalk : Prop :=
  ∀ (h : FrameHead) (s : State) (dx dy dz : Word), Arrives s h .supervisor → s.rebasing = false →
    let bad := Lowest dx ∨ Lowest dy ∨ Lowest dz
    let busyLegs := (∃ l, (s.leg l).phase.inFlight = true) ∨ s.seq.liftPending ≠ none
    let stays (p d : Word) := -32767 ≤ p.toInt + d.toInt ∧ p.toInt + d.toInt ≤ 32767
    let held (r : FootRecord) :=
      (∃ o, r.state = .reserved o) ∨ (∃ o, r.state = .target o) ∨ ∃ o f, r.state = .loaded o f
    let allStay := ∀ i r, s.slot i = some r → held r →
      stays r.content.x dx ∧ stays r.content.y dy ∧ stays r.content.z dz
    let give := Gives (.rebase h dx dy dz) s
    (bad → give (told s h 7 3 .outOfRange []))
    ∧ (¬bad → busyLegs → give (told s h 7 3 .wrongState []))
    ∧ (¬bad → ¬busyLegs → ¬allStay → give (told s h 7 3 .outOfRange []))
    ∧ (¬bad → ¬busyLegs → allStay →
        let n := noted s h 7 3
        let w := ({ n with store := { s.store with walk := some ⟨some 0, dx, dy, dz, 0⟩ } } : State).addReason .rebase
        let shift (p d : Word) : Word := BitVec.ofInt 16 (max (-32767) (min 32767 (p.toInt + d.toInt)))
        give (answered
          (if s.bal.freshness = .none then w
           else { w with
             bal := { s.bal with
               pose := { s.bal.pose with x := shift s.bal.pose.x dx, y := shift s.bal.pose.y dy } } }) h 7 .done []))

/-- One visit of the rebase walk: a FREE slot is passed; a held record and one that stays in the frame are shifted,
each axis held to range, with a new check code; a CANDIDATE or SUSPECT record that would leave the frame becomes FREE
with reason OUT_OF_FRAME and is counted (R43). With no walk at an index there is no visit. That a SUSPECT record's
retirement makes no recount is the model's reading (log 17), and no visit without a walk its choice (log 4). -/
def Sys2Proof.Claims.WalkShiftsOrRetiresEachRecord : Prop :=
  ∀ (s : State),
    ((∀ w, s.store.walk = some w → w.next = none) → Gives .rebaseWalkVisit s (begun s))
    ∧ ∀ (w : RebaseWalk) (i : RecordIndex), s.store.walk = some w → w.next = some i →
        let next : Option RecordIndex := if hi : i.val + 1 < 40 then some ⟨i.val + 1, hi⟩ else none
        let on (retired : Nat) : State :=
          { begun s with store := { s.store with walk := some { w with next := next, retired := retired } } }
        let stays (p d : Word) := -32767 ≤ p.toInt + d.toInt ∧ p.toInt + d.toInt ≤ 32767
        let shift (p d : Word) : Word := BitVec.ofInt 16 (max (-32767) (min 32767 (p.toInt + d.toInt)))
        (s.slot i = none → Gives .rebaseWalkVisit s (on w.retired))
        ∧ ∀ r, s.slot i = some r →
            let c := { r.content with
              x := shift r.content.x w.dx, y := shift r.content.y w.dy, z := shift r.content.z w.dz }
            let moved := (on w.retired).setSlot i
              (some { r with content := { c with check := checkCode (coveredWords c (s.gen i)) } })
            let fits := stays r.content.x w.dx ∧ stays r.content.y w.dy ∧ stays r.content.z w.dz
            (fits → Gives .rebaseWalkVisit s moved)
            ∧ (r.state ≠ .candidate → r.state ≠ .suspect → Gives .rebaseWalkVisit s moved)
            ∧ (¬fits → r.state = .candidate →
                Gives .rebaseWalkVisit s (((on (w.retired + 1)).freeRecord i .outOfFrame).recount))
            ∧ (¬fits → r.state = .suspect →
                Gives .rebaseWalkVisit s ((on (w.retired + 1)).freeRecord i .outOfFrame))

/-- The walk's completion, once index 39 is visited: no walk in flight, REBASE removed with lift readiness evaluated, the
current margin, the takes of SEEKING legs in leg order, the DONE node with the count (R45); before that there is none. The
order of these parts is the model's reading of the rule's list (log 12); the order of the legs, and that a leg which the
margin's halt has let ask already asks again, are its choice (logs 24 and 27). -/
def Sys2Proof.Claims.WalkCompletionEndsTheRebase : Prop :=
  ∀ (s : State),
    ((∀ w, s.store.walk = some w → w.next ≠ none) → Gives .rebaseWalkCompletion s (begun s))
    ∧ ∀ (w : RebaseWalk), s.store.walk = some w → w.next = none →
        let ended : State := { begun s with store := { s.store with walk := none } }
        let m := (ended.removeReason .rebase).computeCurrent
        Gives .rebaseWalkCompletion s
          (((((m.seekAndReport .lf).seekAndReport .rf).seekAndReport .lh).seekAndReport .rh).pend nodeDone
            (.done w.retired))

/-- The rebase walk's visits and its completion (R43, R45). -/
def Obligations.RebaseWalkRuns : Prop := WalkShiftsOrRetiresEachRecord ∧ WalkCompletionEndsTheRebase

/-- One visit of the expiry sweep: a CANDIDATE or SUSPECT record whose age exceeds the expiry parameter becomes FREE
with reason EXPIRED; every other record passes; the sweep moves on and ends after index 39 (R4, R36). That there is no
visit without a sweep is the model's choice (log 4). -/
def Sys2Proof.Claims.SweepExpiresOldRecords : Prop :=
  ∀ (s : State),
    (s.store.sweep = none → Gives .sweepVisit s (begun s))
    ∧ ∀ i, s.store.sweep = some i →
        let next : Option RecordIndex := if hi : i.val + 1 < 40 then some ⟨i.val + 1, hi⟩ else none
        let on : State := { begun s with store := { s.store with sweep := next } }
        let old (r : FootRecord) := s.paramNat 12 < (s.seq.stride.toNat + 4096 - r.birth.toNat) % 4096
        (s.slot i = none → Gives .sweepVisit s on)
        ∧ ∀ r, s.slot i = some r →
            (¬old r → Gives .sweepVisit s on)
            ∧ (r.state ≠ .candidate → r.state ≠ .suspect → Gives .sweepVisit s on)
            ∧ (old r → r.state = .candidate → Gives .sweepVisit s (on.freeRecord i .expired).recount)
            ∧ (old r → r.state = .suspect → Gives .sweepVisit s (on.freeRecord i .expired))

/-- A disturbance of a non-FREE record replaces its covered fields and check code by content that does not verify, and
nothing is told of it (R18). Content that verifies and a FREE slot are no disturbance and change nothing (log 16). -/
def Sys2Proof.Claims.DisturbanceChangesContentAlone : Prop :=
  ∀ (i : RecordIndex) (content : StoredContent) (s : State),
    (∀ r, s.slot i = some r → checkCode (coveredWords content (s.gen i)) ≠ content.check →
      Gives (.storedContentDisturbance i content) s ((begun s).setSlot i (some { r with content := content })))
    ∧ (s.slot i = none ∨ checkCode (coveredWords content (s.gen i)) = content.check →
      Gives (.storedContentDisturbance i content) s (begun s))

/-- The expiry sweep's visits and a disturbance of stored content (R18, R36). -/
def Obligations.SweepAndDisturbance : Prop := SweepExpiresOldRecords ∧ DisturbanceChangesContentAlone

/-! ### Leg queues and reservation (chapter 3) -/

/-- Another leg holds a record closer than the min foot spacing in force to this position, by Chebyshev distance (R51). -/
def Sys2Proof.Claims.TooClose (s : State) (l : Leg) (c : StoredContent) : Prop :=
  ∃ i r o, s.slot i = some r ∧ o ≠ l
    ∧ (r.state = .reserved o ∨ r.state = .target o ∨ ∃ f, r.state = .loaded o f)
    ∧ ((max (r.content.x.toInt - c.x.toInt).natAbs (r.content.y.toInt - c.y.toInt).natAbs : Nat) : Int) < s.param 14

/-- RESERVE of PLANNER or SUPERVISOR: the checks in their order, then the record RESERVED for the leg with its tag
set, its handle at the back of the leg's queue, the change reported and CANDIDATE_COUNT recounted (R8, R48 to R52,
R150). The report before the recount is the model's order (log 6). -/
def Sys2Proof.Claims.ReserveJoinsTheQueue : Prop :=
  ∀ (h : FrameHead) (c : Client) (s : State) (leg handle : Word), Arrives s h c → c ≠ .perception →
    s.rebasing = false →
    let n := noted s h 8 2
    let give := Gives (.reserve h leg handle) s
    (3 < leg.toNat → give (told s h 8 2 .outOfRange []))
    ∧ ∀ l, LegWord leg l →
        (NamesNone s handle → give (told s h 8 2 .noRecord []))
        ∧ ∀ i r, Names s handle i r →
            let steep := slopePasses r.content = false
            let doubtful := (r.content.confidence.toNat : Int) < s.param 13
            let sound := checkCode (coveredWords r.content (s.gen i)) = r.content.check
            (r.state ≠ .candidate → give (told s h 8 2 .wrongState []))
            ∧ (r.state = .candidate → 3 ≤ (s.queue l).length → give (told s h 8 2 .full []))
            ∧ (r.state = .candidate → (s.queue l).length < 3 →
                (steep ∨ doubtful → give (told s h 8 2 .notAdmissible []))
                ∧ (¬steep → ¬doubtful → ¬sound → give (answered (n.failRecord i r) h 8 .checkFailed []))
                ∧ (¬steep → ¬doubtful → sound → TooClose s l r.content → give (told s h 8 2 .tooClose []))
                ∧ (¬steep → ¬doubtful → sound → ¬TooClose s l r.content →
                    give (answered ((((n.setSlot i (some { r with state := .reserved l, tag := s.seq.stride })).setQueue l
                      (s.queue l ++ [⟨i, s.gen i⟩])).reportQueue l (s.queue l) false).recount) h 8 .done [])))

/-- CANCEL of PLANNER or SUPERVISOR: a RESERVED record leaves its queue for CANDIDATE, the entries behind it moving
up; a TARGET record is IN_USE, any other is in the wrong state (R8, R54, R150). The report before the recount is the
model's order (log 6). -/
def Sys2Proof.Claims.CancelReturnsTheRecord : Prop :=
  ∀ (h : FrameHead) (c : Client) (s : State) (handle : Word), Arrives s h c → c ≠ .perception → s.rebasing = false →
    let n := noted s h 9 1
    let give := Gives (.cancel h handle) s
    (NamesNone s handle → give (told s h 9 1 .noRecord []))
    ∧ ∀ i r, Names s handle i r →
        (∀ o, r.state = .reserved o → give (answered
          (((n.setQueue o ((s.queue o).filter fun q => q.index ≠ i)).setSlot i
            (some { r with state := .candidate, tag := s.seq.stride })).reportQueue o (s.queue o) false).recount h 9
          .done []))
        ∧ (∀ o, r.state = .target o → give (told s h 9 1 .inUse []))
        ∧ ((r.state = .candidate ∨ r.state = .suspect ∨ ∃ o f, r.state = .loaded o f) →
            give (told s h 9 1 .wrongState []))

/-- RESERVE and CANCEL (R49 to R54). -/
def Obligations.ReserveAndCancel : Prop := ReserveJoinsTheQueue ∧ CancelReturnsTheRecord

/-- The record state's number (11.3). -/
def Sys2Proof.Claims.stateNumberOf : RecordState → Nat
  | .candidate => 1
  | .reserved _ => 2
  | .target _ => 3
  | .loaded _ _ => 4
  | .suspect => 5

/-- The owner leg's number, 7 for none (11.3). -/
def Sys2Proof.Claims.ownerNumberOf : RecordState → Nat
  | .reserved o | .target o | .loaded o _ => o.number
  | .candidate | .suspect => 7

/-- The check-failed flag, which only a LOADED record has (R30, 11.3). -/
def Sys2Proof.Claims.failedOf : RecordState → Bool
  | .loaded _ f => f
  | .candidate | .reserved _ | .target _ | .suspect => false

/-- A client's number (11.2). -/
def Sys2Proof.Claims.clientNumberOf : Client → Nat
  | .perception => 1
  | .planner => 2
  | .supervisor => 3

/-- A handle word: index 9–4, generation 3–0, NONE 0x03F0. The record words, and the six words that the check code covers, with
the record state, class and slip words (R15, R17, 11.3). -/
def Sys2Proof.Claims.RecordWordsHoldTheirFields : Prop :=
  ∀ (i : RecordIndex) (gen : BitVec 4) (r : FootRecord),
    let c := r.content
    let named := fields [(4, i.val), (0, gen.toNat)]
    let cls := fields [(12, c.surfaceClass.toNat), (8, c.slope.toNat), (0, c.confidence.toNat)]
    let estimate := fields [(0, c.friction.toNat)]
    let slip := fields [(8, c.slips.toNat), (0, gen.toNat)]
    handleWord none = 0x03F0 ∧ handleWord (some ⟨i, gen⟩) = named ∧ (⟨i, gen⟩ : Handle).word = named
    ∧ coveredWords c gen = [c.x, c.y, c.z, cls, estimate, slip]
    ∧ recordWords ⟨i, gen⟩ r =
        [named,
          fields [(8, stateNumberOf r.state), (6, clientNumberOf r.origin), (3, ownerNumberOf r.state),
            (0, (failedOf r.state).toNat)],
          c.x, c.y, c.z, cls, estimate, slip, fields [(0, r.birth.toNat)], fields [(0, r.tag.toNat)]]

/-- The hold reason word: MARGIN, NO_FOOTHOLD, POSE_STALE, SLIP, REBASE, TRIP and PAUSE at bits 0 to 6 (11.4). -/
def Sys2Proof.Claims.reasonWord (r : HoldReasons) : Word :=
  fields [(0, r.margin.toNat), (1, r.noFoothold.toNat), (2, r.poseStale.toNat), (3, r.slip.toNat), (4, r.rebase.toNat),
    (5, r.trip.toNat), (6, r.pause.toNat)]

/-- The halt reason's number, 0 for none (R114). -/
def Sys2Proof.Claims.haltNumberOf (c : Option HaltCause) : Nat :=
  [none, some HaltCause.client, some .tip, some .supportLost, some .legLost, some .slipLimit, some .swingTimeout,
    some .check, some .trip].idxOf c

/-- The loss reason's number (11.4). -/
def Sys2Proof.Claims.lossNumberOf (r : LossReason) : Nat := [LossReason.none, .silent, .noEcho, .relink, .joint].idxOf r

/-- The classification's number (R133). -/
def Sys2Proof.Claims.classNumberOf (c : MarginClass) : Nat :=
  [MarginClass.inside, .onEdge, .outside, .degen, .saturated].idxOf c

/-- LEGSTATE's six words: phase, bounce count, flags, link and loss reason; the two handles; the port's flags; the two loads
(R111, 11.4). -/
def Sys2Proof.Claims.LegWordsHoldTheirFields : Prop :=
  ∀ (v : LegState) (p : Port),
    let phase := [Phase.unseen, .idle, .stance, .unloading, .swing, .seeking, .descent, .touchdown, .lost].idxOf v.phase
    legWords v p =
      [fields [(12, phase), (8, v.bounce % 4), (7, v.slipLatched.toNat), (6, v.stepFlag.toNat),
          (5, if v.swingTimer = .stopped then 0 else 1), (4, p.linkUp.toNat), (0, lossNumberOf p.loss)],
        handleWord v.stance, handleWord v.target,
        fields [(15, p.jointFault.toNat), (14, p.pending.isSome.toNat), (13, p.slipHeld.toNat),
          (12, p.report.arrived.toNat), (11, p.report.overtemp.toNat), (0, p.report.jointFault.toNat)],
        fields [(0, p.report.normal.toNat)], fields [(0, p.report.tangential.toNat)]]

/-- A leg's number, or another where there is no leg (11.4). -/
def Sys2Proof.Claims.legOr (l : Option Leg) (other : Nat) : Nat := (l.map Leg.number).getD other

/-- The gait report's three words: gait, halt reason, pattern, order pointer and pending lift; the stride; the hold reasons
(R124, 11.4). -/
def Sys2Proof.Claims.GaitReportHoldsItsFields : Prop :=
  ∀ q : Sequencer,
    let gait := [Gait.off, .standing, .walking, .holding, .stopping, .halted].idxOf q.gait
    gaitReport q =
      [fields [(12, gait), (8, haltNumberOf q.haltReason), (7, if q.pattern = .backward then 1 else 0),
          (4, q.pointer.number), (3, q.liftPending.isSome.toNat), (0, legOr q.liftPending 0)],
        fields [(0, q.stride.toNat)], reasonWord q.reasons]

/-- MARGIN's eight words: the two margins with their classifications, the support legs and the last lift leg; the pose, 0 with
none held; its freshness with SAT and DEGEN (R147, 11.4). -/
def Sys2Proof.Claims.MarginWordsHoldTheirFields : Prop :=
  ∀ b : Balance,
    let held (w : Word) : Word := if b.freshness = .none then 0 else w
    marginWords b =
      [b.current.value,
        fields [(0, classNumberOf b.current.cls), (4, b.currentLegs.lf.toNat), (5, b.currentLegs.rf.toNat),
          (6, b.currentLegs.lh.toNat), (7, b.currentLegs.rh.toNat), (8, classNumberOf b.lift.cls), (12, legOr b.liftLeg 7)],
        b.lift.value, held b.pose.x, held b.pose.y, held b.pose.pitch, held b.pose.roll,
        fields [(0, [Freshness.none, .fresh, .stale].idxOf b.freshness), (8, b.sat.toNat), (9, b.degen.toNat)]]

/-- TRIPSTATE's three words: the trips' states; the terms' truths and enables; the trips FIRED with HOLD or HALT (R159,
11.4). -/
def Sys2Proof.Claims.TripWordsHoldTheirFields : Prop :=
  ∀ u : TripUnit,
    let state (n : Fin 4) := [TripState.disarmed, .armed, .primed, .fired].idxOf u.trips[n].state
    let stops (n : Fin 4) : Nat :=
      if u.trips[n].state = .fired ∧ (u.trips[n].action = .hold ∨ u.trips[n].action = .halt) then 1 else 0
    tripWords u =
      [fields ((List.finRange 4).map fun n => (2 * n.val, state n)),
        fields ((List.finRange 8).map (fun n => (n.val, u.terms[n].truth.toNat))
          ++ (List.finRange 8).map fun n => (8 + n.val, u.terms[n].enabled.toNat)),
        fields ((List.finRange 4).map fun n => (n.val, stops n))]

/-- The condition word: link UP 3–0, joint fault present 7–4, lanes shut 8 and 9, SAT 12, DEGEN 13, CHECK 14, FRAME 15 (R169,
11.4). -/
def Sys2Proof.Claims.ConditionWordHoldsItsFields : Prop :=
  ∀ s : State, s.conditionWord = fields
    [(0, (s.port .lf).linkUp.toNat), (1, (s.port .rf).linkUp.toNat), (2, (s.port .lh).linkUp.toNat),
      (3, (s.port .rh).linkUp.toNat), (4, (s.port .lf).jointFault.toNat), (5, (s.port .rf).jointFault.toNat),
      (6, (s.port .lh).jointFault.toNat), (7, (s.port .rh).jointFault.toNat), (8, s.lanes.shutA.toNat),
      (9, s.lanes.shutB.toNat), (12, s.bal.sat.toNat), (13, s.bal.degen.toNat), (14, s.attn.checkFlag.toNat),
      (15, s.attn.frameFlag.toNat)]

/-- The first two detail words of each kind of detail (11.4, "Node and detail words"). -/
def Sys2Proof.Claims.detailPair : Detail → Word × Word
  | .client => (fields [(15, 1)], 0)
  | .tip m => (fields [(0, classNumberOf m.cls)], m.value)
  | .slip l inTouchdown h => (fields [(0, l.number), (8, inTouchdown.toNat)], handleWord (some h))
  | .miss l byBounce h => (fields [(0, l.number), (8, byBounce.toNat)], handleWord (some h))
  | .leg l kind loss =>
    (fields [(0, l.number), (4, [LegEventKind.lost, .returned, .unexpectedUnload, .lateContact].idxOf kind),
      (8, lossNumberOf loss)], 0)
  | .gaitHolding r => (0, reasonWord r)
  | .gaitHalted c => (1, fields [(0, haltNumberOf (some c))])
  | .gaitStanding => (2, 0)
  | .record h reason =>
    (fields [(0, [RetireReason.client, .expired, .void, .check, .outOfFrame].idxOf reason)], handleWord (some h))
  | .trip n => (fields [(0, n.val)], 0)
  | .done retired => (fields [(0, retired)], 0)

/-- The node words of ATTENTION and VECTOR, each followed by the three detail words, 0 when no detail is present (R165, R166,
11.4). -/
def Sys2Proof.Claims.NodeWordsHoldTheirFields : Prop :=
  ∀ (n : NodeNumber) (v : Node),
    let detail : List Word := match v.pending with
      | some d => [(detailPair d).1, (detailPair d).2, 0]
      | none => [0, 0, 0]
    attentionWords n v =
        fields [(0, n.val), (8, v.priority.toNat), (13, v.enabled.toNat), (14, v.pending.isSome.toNat), (15, v.more.toNat)]
          :: detail
    ∧ vectorWords n v = fields [(0, n.val), (15, v.more.toNat)] :: detail

/-- QUEUE, LEGSTATE, MARGIN, TRIPSTATE, CONDITION, GETPARAM, GETFRICTION and GAIT REPORT answer what they read and change
nothing at their owner; a number out of range is refused with OUT_OF_RANGE (R55, R111, R123, R124, R147, R159, R169, R186,
R187). -/
def Sys2Proof.Claims.ReadingCommandsAnswer : Prop :=
  ∀ (h : FrameHead) (c : Client) (s : State) (w : Word), Arrives s h c →
    (∀ l, LegWord w l →
      Gives (.queue h w) s (told s h 10 1 .done
        [BitVec.ofNat 16 (s.queue l).length, handleWord (s.queue l)[0]?, handleWord (s.queue l)[1]?,
          handleWord (s.queue l)[2]?])
      ∧ Gives (.legstate h w) s (told s h 14 1 .done (legWords (s.leg l) (s.port l))))
    ∧ (3 < w.toNat →
        Gives (.queue h w) s (told s h 10 1 .outOfRange []) ∧ Gives (.legstate h w) s (told s h 14 1 .outOfRange []))
    ∧ (s.rebasing = false → Gives (.margin h) s (told s h 19 0 .done (marginWords s.bal)))
    ∧ Gives (.tripstate h) s (told s h 22 0 .done (tripWords s.trips))
    ∧ Gives (.condition h) s (told s h 26 0 .done [s.conditionWord])
    ∧ (∀ n : Fin 18, w.toNat = n.val → Gives (.getparam h w) s (told s h 33 1 .done [w, s.params[n]]))
    ∧ (17 < w.toNat → Gives (.getparam h w) s (told s h 33 1 .outOfRange []))
    ∧ (∀ n : Fin 8, w.toNat = n.val →
        Gives (.getfriction h w) s (told s h 35 1 .done
          [w, s.store.friction[n].coefficient.setWidth 16, s.store.friction[n].derate.setWidth 16]))
    ∧ (7 < w.toNat → Gives (.getfriction h w) s (told s h 35 1 .outOfRange []))
    ∧ (c ≠ .perception →
        Gives (.gaitReport h 7) s (told s h 16 1 .done (gaitReport s.seq))
        ∧ (7 < w.toNat → Gives (.gaitReport h w) s (told s h 16 1 .outOfRange (gaitReport s.seq))))

/-- The reading commands, and the fields of every answer word (11.3, 11.4). -/
def Obligations.ReadingCommandsOnlyRead : Prop :=
  ReadingCommandsAnswer ∧ RecordWordsHoldTheirFields ∧ LegWordsHoldTheirFields ∧ GaitReportHoldsItsFields
    ∧ MarginWordsHoldTheirFields ∧ TripWordsHoldTheirFields ∧ ConditionWordHoldsItsFields ∧ NodeWordsHoldTheirFields

/-! ### Leg ports and leg phase machines (chapters 4 and 5) -/

/-- An order asked of an UP link: the number advances by one, the frame is sent and becomes the pending order with no
retry used and the echo timer started; on a DOWN link nothing happens (R68, R71). The list of orders sent is the
model's own field (log 15). -/
def Obligations.OrdersAreNumberedAndPend : Prop :=
  ∀ (s : State) (l : Leg) (kind : OrderKind) (dx dy z : Word),
    let p := s.port l
    let o : Order := ⟨p.lastNumber + 1, kind, dx, dy, z⟩
    (p.linkUp = false → s.sendOrder l kind dx dy z = s)
    ∧ (p.linkUp = true → s.sendOrder l kind dx dy z =
        { s with
          ports := s.ports.set l
            { p with
              lastNumber := p.lastNumber + 1
              lastKind := some kind
              pending := some o
              retries := 0
              echoTimer := .running (s.paramNat 10) }
          ordersSent := s.ordersSent ++ [(l, o)] })

/-- ADOPT of PLANNER or SUPERVISOR: the checks in their order, then the record LOADED for the leg with its
check-failed flag clear, the leg in STANCE on it, the detector armed FOR_LIFTOFF, the current margin computed,
SLIP_COUNT and CANDIDATE_COUNT delivered (R9, R78, R91, R137, R142, R150). The order of the last three is the model's
choice (log 6). -/
def Obligations.AdoptStandsTheLeg : Prop :=
  ∀ (h : FrameHead) (c : Client) (s : State) (leg handle : Word), Arrives s h c → c ≠ .perception →
    s.rebasing = false →
    let n := noted s h 12 2
    let give := Gives (.adopt h leg handle) s
    (3 < leg.toNat → give (told s h 12 2 .outOfRange []))
    ∧ ∀ l, LegWord leg l →
        (NamesNone s handle → give (told s h 12 2 .noRecord []))
        ∧ ∀ i r, Names s handle i r →
            let idle := (s.leg l).phase = .idle
            let light := ((s.port l).report.normal.toNat : Int) < s.param 2
            let steep := slopePasses r.content = false
            let sound := checkCode (coveredWords r.content (s.gen i)) = r.content.check
            (¬idle → give (told s h 12 2 .wrongState []))
            ∧ (idle → light → give (told s h 12 2 .notLoaded []))
            ∧ (idle → ¬light →
                (r.state ≠ .candidate → give (told s h 12 2 .wrongState []))
                ∧ (r.state = .candidate → steep → give (told s h 12 2 .notAdmissible []))
                ∧ (r.state = .candidate → ¬steep → ¬sound →
                    give (answered (n.failRecord i r) h 12 .checkFailed []))
                ∧ (r.state = .candidate → ¬steep → sound → TooClose s l r.content →
                    give (told s h 12 2 .tooClose []))
                ∧ (r.state = .candidate → ¬steep → sound → ¬TooClose s l r.content →
                    let stood := ((n.setSlot i (some { r with state := .loaded l false, tag := s.seq.stride })).setLeg l
                        { s.leg l with phase := .stance, stance := some ⟨i, s.gen i⟩ }).setPort l
                        { s.port l with arming := .forLiftoff }
                    give (answered ((stood.computeCurrent.deliver false .slipCount l r.content.slips.toNat).recount) h 12
                      .done [])))

/-- REDIRECT of PLANNER or SUPERVISOR in SWING or DESCENT, with a usable front: the old target goes back to CANDIDATE,
the front leaves the queue as the new target, the leg is in SWING with the descent timer stopped and the bounce count
0, and PLACE is composed (R57, R93, R110). An empty queue, an inadmissible front and a front failing its check answer
EMPTY, NOT_ADMISSIBLE and CHECK_FAILED. The report before the recount is the model's order (log 6). -/
def Obligations.RedirectTakesTheFront : Prop :=
  ∀ (h : FrameHead) (c : Client) (s : State) (leg : Word), Arrives s h c → c ≠ .perception → s.rebasing = false →
    let n := noted s h 13 1
    let give := Gives (.redirect h leg) s
    (3 < leg.toNat → give (told s h 13 1 .outOfRange []))
    ∧ ∀ l, LegWord leg l →
        let moving := (s.leg l).phase = .swing ∨ (s.leg l).phase = .descent
        (¬moving → give (told s h 13 1 .wrongState []))
        ∧ (moving → s.queue l = [] → give (told s h 13 1 .empty []))
        ∧ ∀ q rest r, moving → s.queue l = q :: rest → s.slot q.index = some r → r.state = .reserved l →
            let bad := slopePasses r.content = false ∨ (r.content.confidence.toNat : Int) < s.param 13
            let sound := checkCode (coveredWords r.content (s.gen q.index)) = r.content.check
            let shorter := (s.queue l).filter fun e => e.index ≠ q.index
            (bad → give (told s h 13 1 .notAdmissible []))
            ∧ (¬bad → ¬sound →
                give (answered (((n.setQueue l shorter).freeFailed q.index).reportQueue l (s.queue l) false) h 13
                  .checkFailed []))
            ∧ (¬bad → sound → ∀ old r', (s.leg l).target = some old → old.index ≠ q.index →
                s.slot old.index = some r' → r'.state = .target l →
                let released := n.setSlot old.index (some { r' with state := .candidate, tag := s.seq.stride })
                let taken := (released.setQueue l shorter).setSlot q.index
                  (some { r with state := .target l, tag := s.seq.stride })
                let aimed := (taken.setLeg l
                  { s.leg l with phase := .swing, target := some q, bounce := 0, descentTimer := .stopped }).sendOrder l
                    .place (heldDifference r.content.x s.bal.com.1) (heldDifference r.content.y s.bal.com.2) r.content.z
                give (answered ((aimed.reportToSequencer l).recount) h 13 .done []))

/-- RELINK of SUPERVISOR: the joint fault latch clears and every effect of a DOWN declaration with reason RELINK is taken,
whether the link was UP or DOWN; a leg above 3 is out of range (R76, R77). -/
def Sys2Proof.Claims.RelinkDeclaresDown : Prop :=
  ∀ (h : FrameHead) (s : State) (leg : Word), Arrives s h .supervisor →
    (3 < leg.toNat → Gives (.relink h leg) s (told s h 15 1 .outOfRange []))
    ∧ ∀ l, LegWord leg l →
        let n := noted s h 15 1
        let p := s.port l
        let q : Port :=
          { p with
            jointFault := false
            linkUp := false
            loss := .relink
            pending := none
            retries := 0
            echoTimer := .stopped
            lastKind := none
            arming := .unarmed
            windowCount := 0
            goodRun := 0
            windowPeriod := s.paramNat 8 }
        (p.slipHeld = false →
          Gives (.relink h leg) s (answered ((n.setPort l q).legLost l) h 15 .done []))
        ∧ (p.slipHeld = true →
          Gives (.relink h leg) s
            (answered (((n.setPort l { q with slipHeld := false, rearmTimer := .stopped }).slipRearmHanded l).legLost l) h
              15 .done []))

/-- The pending lift reaches its leg: in STANCE with a usable front the front is the target, the leg is UNLOADING with
its step flag set, its swing timer started and LIFT asked for, and no lift is pending; in STOPPING and HALTED it is
withdrawn in the same event. Without such a front the sequencer takes the refusal. With no lift pending, or during a
rebase walk, there is no request (R8, R57, R92, R122; log 18). The order of the notices is the model's choice (log 6).
-/
def Sys2Proof.Claims.LiftTakesTheFront : Prop :=
  ∀ (s : State),
    (s.seq.liftPending = none ∨ s.rebasing = true → Gives .lift s (begun s))
    ∧ ∀ l, s.seq.liftPending = some l → s.rebasing = false →
        let cleared : State := { begun s with seq := { s.seq with liftPending := none } }
        let refused := if s.walkingSelected then (cleared.addReason .noFoothold).evaluate else cleared.endStopping
        ((s.leg l).phase ≠ .stance ∨ s.queue l = [] → Gives .lift s refused)
        ∧ ∀ q rest r, (s.leg l).phase = .stance → s.queue l = q :: rest → s.slot q.index = some r →
            r.state = .reserved l →
            let bad := slopePasses r.content = false ∨ (r.content.confidence.toNat : Int) < s.param 13
            let sound := checkCode (coveredWords r.content (s.gen q.index)) = r.content.check
            let shorter := (s.queue l).filter fun e => e.index ≠ q.index
            (bad → Gives .lift s refused)
            ∧ (¬bad → ¬sound →
                let failed : State := { (((begun s).setQueue l shorter).freeFailed q.index) with
                  seq := { s.seq with liftPending := none } }
                Gives .lift s
                  ((if s.walkingSelected then (failed.addReason .noFoothold).evaluate else failed.endStopping).reportToSequencer
                    l))
            ∧ (¬bad → sound →
                let taken := ((begun s).setQueue l shorter).setSlot q.index
                  (some { r with state := .target l, tag := s.seq.stride })
                let lifted := (taken.setLeg l
                  { s.leg l with
                    phase := .unloading
                    target := some q
                    bounce := 0
                    stepFlag := true
                    swingTimer := .running (s.paramNat 6) }).sendOrder l .lift 0 0 0
                let started : State := { lifted with seq := { s.seq with liftPending := none } }
                (s.seq.gait ≠ .stopping → s.seq.gait ≠ .halted → Gives .lift s (started.reportToSequencer l))
                ∧ (s.seq.gait = .stopping ∨ s.seq.gait = .halted →
                    Gives .lift s ((started.withdrawLift l).endStopping.recountIf started.withdrawalOverflows)))

/-- A lift withdrawal in UNLOADING hands the target back RESERVED at the front of the leg's queue, a fourth entry going back
to CANDIDATE, and the leg returns to STANCE with HOLD asked for; in any other phase it does nothing (R8, R59, R94). -/
def Sys2Proof.Claims.WithdrawalHandsTheTargetBack : Prop :=
  ∀ (s : State) (l : Leg),
    ((s.leg l).phase ≠ .unloading → s.withdrawLift l = s)
    ∧ ∀ h r, (s.leg l).phase = .unloading → (s.leg l).target = some h → s.slot h.index = some r →
        r.state = .target l →
        let handed := s.setSlot h.index (some { r with state := .reserved l, tag := s.seq.stride })
        let back (t : State) := (t.setLeg l
          { s.leg l with
            phase := .stance
            target := none
            bounce := 0
            stepFlag := false
            swingTimer := .stopped }).sendOrder l .hold 0 0 0
        ((s.queue l).length < 3 → s.withdrawLift l = back (handed.setQueue l (h :: s.queue l)))
        ∧ ∀ a b d r', s.queue l = [a, b, d] → d.index ≠ h.index → s.slot d.index = some r' → r'.state = .reserved l →
            s.withdrawLift l = back ((handed.setQueue l [h, a, b]).setSlot d.index
              (some { r' with state := .candidate, tag := s.seq.stride }))

/-- The lift and its withdrawal (R59, R92, R94, R122). -/
def Obligations.LiftAndWithdrawal : Prop := LiftTakesTheFront ∧ WithdrawalHandsTheTargetBack

/-- The descent timer's expiry in DESCENT withdraws the target as VOID and the leg seeks; the settle timer's in
TOUCHDOWN confirms the stance; the swing timer's gives the halt cause SWING_TIMEOUT; without its timer running in its
phase an expiry does not occur (R9, R10, R97, R98, R107; log 4). The order of the notices is the model's choice (log
6). -/
def Obligations.LegTimersExpire : Prop :=
  ∀ (s : State) (l : Leg) (p : Nat),
    (((s.leg l).phase ≠ .descent ∨ (s.leg l).descentTimer = .stopped) → Gives (.descentTimerExpiry l) s (begun s))
    ∧ (((s.leg l).phase ≠ .touchdown ∨ (s.leg l).settleTimer = .stopped) → Gives (.settleTimerExpiry l) s (begun s))
    ∧ ((s.leg l).swingTimer = .stopped → Gives (.swingTimerExpiry l) s (begun s))
    ∧ ((s.leg l).swingTimer = .running p →
        Gives (.swingTimerExpiry l) s
          (((begun s).setLeg l { s.leg l with swingTimer := .stopped }).haltCause .swingTimeout))
    ∧ ∀ h r, (s.leg l).target = some h → s.slot h.index = some r → r.state = .target l →
        ((s.leg l).phase = .descent → (s.leg l).descentTimer = .running p →
          Gives (.descentTimerExpiry l) s
            ((((((begun s).freeRecord h.index .void).setLeg l
              { s.leg l with
                phase := .seeking
                target := none
                bounce := 0
                descentTimer := .stopped
                settleTimer := .stopped }).sendOrder l .retract 0 0 0).pend nodeMiss (.miss l false h)).seekAndReport l))
        ∧ ((s.leg l).phase = .touchdown → (s.leg l).settleTimer = .running p →
          let stood := (((begun s).setSlot h.index
              (some { r with state := .loaded l false, tag := s.seq.stride })).setLeg l
            { s.leg l with
              phase := .stance
              stance := some h
              target := none
              bounce := 0
              stepFlag := false
              swingTimer := .stopped
              settleTimer := .stopped }).sendOrder l .hold 0 0 0
          Gives (.settleTimerExpiry l) s
            ((stood.computeCurrent.confirmationTold l (s.leg l).stepFlag).deliver false .slipCount l
              r.content.slips.toNat))

/-- The echo timer's expiry: below the order retries the pending frame is sent again word for word and a retry is
counted; at them the link is declared DOWN with reason NO_ECHO (R70, R76). That a stopped timer does not expire is the
model's choice (log 4). -/
def Sys2Proof.Claims.EchoExpiryResendsOrGivesUp : Prop :=
  ∀ (s : State) (l : Leg) (o : Order) (p : Nat),
    ((s.port l).echoTimer = .stopped ∨ (s.port l).pending = none → Gives (.echoTimerExpiry l) s (begun s))
    ∧ ((s.port l).echoTimer = .running p → (s.port l).pending = some o →
        ((s.port l).retries < s.paramNat 11 →
          Gives (.echoTimerExpiry l) s
            { s with
              ports := s.ports.set l
                { s.port l with retries := (s.port l).retries + 1, echoTimer := .running (s.paramNat 10) }
              ordersSent := [(l, o)] })
        ∧ (s.paramNat 11 ≤ (s.port l).retries →
            Gives (.echoTimerExpiry l) s ((begun s).declareDown l .noEcho)))

/-- The end of a liveness window, classified by the min frames in force: on an UP link a good one changes nothing but the
window and a bad one declares DOWN with reason SILENT; on a DOWN link the second good one in a row brings the link UP, a
first is counted and a bad one ends the run (R73, R74, R75). -/
def Sys2Proof.Claims.WindowEndsMoveTheLink : Prop :=
  ∀ (s : State) (l : Leg),
    let p := s.port l
    let good := s.paramNat 9 ≤ p.windowCount
    let next := { p with windowCount := 0, windowPeriod := s.paramNat 8 }
    (p.linkUp = true → good → Gives (.livenessWindowEnd l) s ((begun s).setPort l next))
    ∧ (p.linkUp = true → ¬good → Gives (.livenessWindowEnd l) s ((begun s).declareDown l .silent))
    ∧ (p.linkUp = false → good → p.goodRun ≠ 1 →
        Gives (.livenessWindowEnd l) s ((begun s).setPort l { next with goodRun := p.goodRun + 1 }))
    ∧ (p.linkUp = false → good → p.goodRun = 1 →
        let up : State := (begun s).setPort l
          { next with linkUp := true, goodRun := 0, arming := .unarmed, slipHeld := false, rearmTimer := .stopped }
        Gives (.livenessWindowEnd l) s
          (if ((s.leg l).phase = .unseen ∨ (s.leg l).phase = .lost) ∧ p.jointFault = false then
            ((up.setLeg l { s.leg l with phase := .idle }).sendOrder l .hold 0 0 0).pend nodeLeg
              (.leg l .returned .none)
          else up))
    ∧ (p.linkUp = false → ¬good → Gives (.livenessWindowEnd l) s ((begun s).setPort l { next with goodRun := 0 }))

/-- The slip re-arm timer's expiry while the condition is HELD: NOT_HELD with the timer stopped, the leg's
slip-latched flag clear, and SLIP leaves the hold reason set when no leg's flag remains set (R84, R103, R118). That a
stopped timer does not expire is the model's choice (log 4). -/
def Sys2Proof.Claims.SlipRearmClearsTheSlip : Prop :=
  ∀ (s : State) (l : Leg) (p : Nat),
    ((s.port l).rearmTimer = .stopped ∨ (s.port l).slipHeld = false → Gives (.slipRearmTimerExpiry l) s (begun s))
    ∧ ((s.port l).rearmTimer = .running p → (s.port l).slipHeld = true →
        let armed := ((begun s).setPort l { s.port l with slipHeld := false, rearmTimer := .stopped }).setLeg l
          { s.leg l with slipLatched := false }
        ((∃ m, m ≠ l ∧ (s.leg m).slipLatched = true) → Gives (.slipRearmTimerExpiry l) s armed)
        ∧ ((∀ m, m ≠ l → (s.leg m).slipLatched = false) →
            Gives (.slipRearmTimerExpiry l) s (armed.removeReason .slip)))

/-- The echo timer, the liveness window and the slip re-arm timer (R70, R73 to R75, R84). -/
def Obligations.PortTimersExpire : Prop := EchoExpiryResendsOrGivesUp ∧ WindowEndsMoveTheLink ∧ SlipRearmClearsTheSlip

/-- A contact report with a bad check word sets FRAME and nothing else. A good one is stored whatever the link's state: the
loads and flags are the last report, the window count adds one up to 255, and a nonzero joint fault code is latched
(R66, R67, R85, 11.5). -/
def Sys2Proof.Claims.ReportsAreStoredOrSetFrame : Prop :=
  ∀ (s : State) (l : Leg) (flags normal tangential check : Word),
    (checkCode [flags, normal, tangential] ≠ check →
      Gives (.contactReport l flags normal tangential check) s { begun s with attn := { s.attn with frameFlag := true } })
    ∧ (checkCode [flags, normal, tangential] = check →
        ∃ t, Gives (.contactReport l flags normal tangential check) s t
          ∧ (t.port l).report =
              { normal := normal.extractLsb' 0 11
                tangential := tangential.extractLsb' 0 11
                arrived := flags.getLsbD 11
                overtemp := flags.getLsbD 10
                jointFault := flags.extractLsb' 0 3 }
          ∧ (t.port l).windowCount = min 255 ((s.port l).windowCount + 1)
          ∧ (t.port l).linkUp = (s.port l).linkUp
          ∧ (t.port l).jointFault = ((s.port l).jointFault || flags.extractLsb' 0 3 != 0))

/-- The steps of a report after the second: the echo completes the pending order it names, an arrival for the current PLACE
takes SWING to DESCENT, the detector takes its edge, and the slip condition is tested (R66, R68, R69, R79 to R84). -/
def Sys2Proof.Claims.laterSteps (l : Leg) (flags : Word) (r : Report) (u : State) : State :=
  let echoed := match (u.port l).pending with
    | some o =>
      if flags.extractLsb' 12 4 = o.number then
        u.setPort l { u.port l with pending := none, retries := 0, echoTimer := .stopped }
      else u
    | none => u
  let arrived :=
    if flags.getLsbD 11 = true ∧ (echoed.port l).lastKind = some .place
        ∧ flags.extractLsb' 12 4 = (echoed.port l).lastNumber ∧ (echoed.leg l).phase = .swing then
      echoed.setLeg l { echoed.leg l with phase := .descent, descentTimer := .running (u.paramNat 5) }
    else echoed
  (arrived.reportEdges l r).reportSlip l r

/-- A good report on an UP link of a leg with no fault in it: its three values are delivered, then the echo completes
the pending order it names, an arrival for the current PLACE takes SWING to DESCENT, the detector takes its edge, and
the slip condition is tested, each on the state as the steps before it left it (R66 to R69, R79, R80). On a DOWN link
the report stops after its second step. The order of the three deliveries is the model's choice (log 11). -/
def Sys2Proof.Claims.ReportsTakeTheirStepsInOrder : Prop :=
  ∀ (s : State) (l : Leg) (flags normal tangential : Word),
    let r := reportOf flags normal tangential
    let stored := (begun s).reportStore l r
    (s.port l).jointFault = true ∨ flags.extractLsb' 0 3 = 0 →
      ((s.port l).linkUp = false →
        Gives (.contactReport l flags normal tangential (checkCode [flags, normal, tangential])) s stored)
      ∧ ((s.port l).linkUp = true →
        Gives (.contactReport l flags normal tangential (checkCode [flags, normal, tangential])) s
          (laterSteps l flags r stored))

/-- A good report that brings a leg its first nonzero joint fault code: joint fault present is latched. On a DOWN link that
is all; on an UP link the loss reason is JOINT, the leg is lost, the link stays UP, and the report's remaining steps are
taken with the leg as the loss has left it (R66, R85). The order of the three deliveries is the model's choice (log 11). -/
def Sys2Proof.Claims.FirstJointFaultLosesTheLeg : Prop :=
  ∀ (s : State) (l : Leg) (flags normal tangential : Word),
    let r := reportOf flags normal tangential
    let stored := (begun s).reportStore l r
    (s.port l).jointFault = false → flags.extractLsb' 0 3 ≠ 0 →
      ((s.port l).linkUp = false →
        Gives (.contactReport l flags normal tangential (checkCode [flags, normal, tangential])) s
          (stored.setPort l { stored.port l with jointFault := true }))
      ∧ ((s.port l).linkUp = true →
        let lost := (stored.setPort l { stored.port l with jointFault := true, loss := .joint }).legLost l
        (lost.port l).linkUp = true
        ∧ Gives (.contactReport l flags normal tangential (checkCode [flags, normal, tangential])) s
            (laterSteps l flags r lost))

/-- The first step of a good report: stored and counted, then NORMAL_LOAD, TANGENTIAL_RATIO and OVERTEMP are delivered; the
ratio is tangential times 256 over normal, truncated and held at 32767, and 0 below the touchdown load in force (R66, R150).
The order of the three deliveries is the model's choice (log 11). -/
def Sys2Proof.Claims.ReportsDeliverTheirValues : Prop :=
  ∀ (s : State) (l : Leg) (r : Report),
    let p := s.port l
    let stored := s.setPort l { p with report := r, windowCount := min 255 (p.windowCount + 1) }
    let ratio : Nat :=
      if (r.normal.toNat : Int) < s.param 2 then 0 else min 32767 (r.tangential.toNat * 256 / r.normal.toNat)
    s.reportStore l r =
      ((stored.deliver false .normalLoad l r.normal.toNat).deliver false .tangentialRatio l ratio).deliver false .overtemp l
        r.overtemp.toNat

/-- The arrival of a contact report, its steps, its joint fault code and the values it delivers (R66 to R69, R85, R150). -/
def Obligations.ContactReportsAreTaken : Prop :=
  ReportsAreStoredOrSetFrame ∧ ReportsTakeTheirStepsInOrder ∧ FirstJointFaultLosesTheLeg ∧ ReportsDeliverTheirValues

/-- A touchdown edge at the phase machine: DESCENT to TOUCHDOWN with the settle timer started, a late contact in SEEKING,
nothing elsewhere (R79, R96, R106). -/
def Sys2Proof.Claims.touchdownTaken (l : Leg) (u : State) : State :=
  match (u.leg l).phase with
  | .descent => u.setLeg l
      { u.leg l with phase := .touchdown, descentTimer := .stopped, settleTimer := .running (u.paramNat 4) }
  | .seeking => u.pend nodeLeg (.leg l .lateContact .none)
  | _ => u

/-- The contact detector: an UNARMED one is armed by the load and takes no edge; armed FOR_TOUCHDOWN it takes a touchdown at
or above the touchdown load, armed FOR_LIFTOFF a liftoff below the liftoff load, and changes its arming with the edge; a
load between the thresholds takes none. A touchdown with the slip condition HELD re-arms the slip first: NOT_HELD, the
re-arm timer stopped, the leg's latched flag clear, and SLIP removed where no leg's flag remains set (R78 to R80, R103). -/
def Sys2Proof.Claims.EdgesFollowTheLoad : Prop :=
  ∀ (s : State) (l : Leg) (r : Report),
    let p := s.port l
    let load : Int := r.normal.toNat
    (p.arming = .unarmed → s.param 2 ≤ load → s.reportEdges l r = s.setPort l { p with arming := .forLiftoff })
    ∧ (p.arming = .unarmed → load < s.param 2 → s.reportEdges l r = s.setPort l { p with arming := .forTouchdown })
    ∧ (p.arming = .forTouchdown → load < s.param 2 → s.reportEdges l r = s)
    ∧ (p.arming = .forLiftoff → s.param 3 ≤ load → s.reportEdges l r = s)
    ∧ (p.arming = .forLiftoff → load < s.param 3 →
        s.reportEdges l r = (s.setPort l { p with arming := .forTouchdown }).liftoffHanded l)
    ∧ (p.arming = .forTouchdown → s.param 2 ≤ load → p.slipHeld = false →
        s.reportEdges l r = touchdownTaken l (s.setPort l { p with arming := .forLiftoff }))
    ∧ (p.arming = .forTouchdown → s.param 2 ≤ load → p.slipHeld = true →
        let armed := (s.setPort l { p with arming := .forLiftoff, slipHeld := false, rearmTimer := .stopped }).setLeg l
          { s.leg l with slipLatched := false }
        ((∃ m, m ≠ l ∧ (s.leg m).slipLatched = true) → s.reportEdges l r = touchdownTaken l armed)
        ∧ ((∀ m, m ≠ l → (s.leg m).slipLatched = false) →
            s.reportEdges l r = touchdownTaken l (armed.removeReason .slip)))

/-- A liftoff edge by phase: in UNLOADING the stance record is vacated and the leg is in SWING with PLACE composed; in
TOUCHDOWN a bounce below the limit goes back to DESCENT and one at it makes the target SUSPECT and the leg seek; in
STANCE it is an unexpected unload; elsewhere it is ignored (R10 to R13, R93, R99, R104). The order of the notices, and a
second take after a halt that leaves OFF, are the model's choice (logs 6 and 27). -/
def Sys2Proof.Claims.LiftoffByPhase : Prop :=
  ∀ (s : State) (l : Leg),
    (((s.leg l).phase ≠ .unloading ∧ (s.leg l).phase ≠ .touchdown ∧ (s.leg l).phase ≠ .stance) → s.liftoffHanded l = s)
    ∧ ((s.leg l).phase = .touchdown → (s.leg l).bounce < s.paramNat 16 →
        s.liftoffHanded l = s.setLeg l
          { s.leg l with
            phase := .descent
            bounce := (s.leg l).bounce + 1
            settleTimer := .stopped
            descentTimer := .running (s.paramNat 5) })
    ∧ (∀ h r, (s.leg l).phase = .touchdown → s.paramNat 16 ≤ (s.leg l).bounce → (s.leg l).target = some h →
        s.slot h.index = some r → r.state = .target l →
        s.liftoffHanded l =
          ((((s.setSlot h.index (some { r with state := .suspect, tag := s.seq.stride })).enterSeeking l).pend nodeMiss
            (.miss l true h)).seekAndReport l))
    ∧ (∀ h r, (s.leg l).phase = .stance → (s.leg l).stance = some h → s.slot h.index = some r →
        r.state = .loaded l false →
        let unloaded := s.setSlot h.index
          (some { s.chargeSlip h.index r with state := .suspect, tag := s.seq.stride })
        let seeking := (unloaded.setLeg l { s.leg l with stance := none, stepFlag := false }).enterSeeking l
        let halted := (seeking.pend nodeLeg (.leg l .unexpectedUnload .none)).haltCause .supportLost
        s.liftoffHanded l = ((halted.computeCurrent.seekAndReport l).deliver false .slipCount l 0))
    ∧ (∀ h g r, (s.leg l).phase = .unloading → (s.leg l).stance = some h → (s.leg l).target = some g →
        s.slot h.index = some r → r.state = .loaded l false →
        let left := (s.vacate h.index).setLeg l { s.leg l with stance := none, phase := .swing }
        let placed := left.computeCurrent.composePlace l
        (placed.leg l).phase = .swing →
        s.liftoffHanded l = (placed.deliver false .slipCount l 0).recountIf (decide (r.content.slips = 0)))

/-- The composition of PLACE for a leg's target, which is verified: one that verifies is aimed at from the held CoM, or from
0, 0 with no pose held; one that fails its check becomes FREE with reason CHECK, and the leg enters SEEKING with RETRACT
(R20, R68, R93). -/
def Sys2Proof.Claims.PlaceVerifiesTheTarget : Prop :=
  ∀ (s : State) (l : Leg) (h : Handle) (r : FootRecord), (s.leg l).target = some h → s.slot h.index = some r →
    r.state = .target l →
    let com : Word × Word := if s.bal.freshness = .none then (0, 0) else (s.bal.pose.x, s.bal.pose.y)
    (checkCode (coveredWords r.content (s.gen h.index)) = r.content.check →
      s.composePlace l = s.sendOrder l .place (heldDifference r.content.x com.1) (heldDifference r.content.y com.2)
        r.content.z)
    ∧ (checkCode (coveredWords r.content (s.gen h.index)) ≠ r.content.check →
      s.composePlace l = ((freedByCheck s h.index).setLeg l
        { s.leg l with
          phase := .seeking, target := none, bounce := 0, descentTimer := .stopped, settleTimer := .stopped }).sendOrder l
        .retract 0 0 0)

/-- The liftoff edge in UNLOADING and in STANCE whatever the stance record's check-failed flag: a flagged record becomes FREE
with reason CHECK and its departure computes no margin, since it was out of the support set already; in UNLOADING a target
that fails its check as PLACE is composed sends the leg seeking, and it asks for a take in the same event (R13, R93, R104,
R105, R137). The order of the notices, and a second take after a halt that leaves OFF, are the model's choice (logs 6 and
27). -/
def Sys2Proof.Claims.LiftoffOfAnyStanceRecord : Prop :=
  ∀ (s : State) (l : Leg) (h : Handle) (r : FootRecord) (flagged : Bool), (s.leg l).stance = some h →
    s.slot h.index = some r → r.state = .loaded l flagged →
    ((s.leg l).phase = .unloading →
      let vacated := if flagged then s.freeRecord h.index .check else s.vacate h.index
      let left := vacated.setLeg l { s.leg l with stance := none, phase := .swing }
      let placed := (if flagged then left else left.computeCurrent).composePlace l
      let settled := if (placed.leg l).phase = .seeking then placed.seekAndReport l else placed
      let delivered := settled.deliver false .slipCount l 0
      s.liftoffHanded l = if flagged = false ∧ r.content.slips = 0 then delivered.recount else delivered)
    ∧ ((s.leg l).phase = .stance → flagged = true →
      let seeking := ((s.freeRecord h.index .check).setLeg l { s.leg l with stance := none, stepFlag := false }).enterSeeking l
      let halted := (seeking.pend nodeLeg (.leg l .unexpectedUnload .none)).haltCause .supportLost
      s.liftoffHanded l = (halted.seekAndReport l).deliver false .slipCount l 0)

/-- The contact edges, the liftoff edge by the leg's phase, and the composition of PLACE (R13, R78 to R80, R93, R99,
R104). -/
def Obligations.EdgesAndLiftoffs : Prop :=
  EdgesFollowTheLoad ∧ LiftoffByPhase ∧ PlaceVerifiesTheTarget ∧ LiftoffOfAnyStanceRecord

/-- A report's slip test: below the touchdown load, or with no stance record in STANCE and no target in TOUCHDOWN, the
condition does not hold; else it holds when tangential × 256 exceeds the friction estimate × normal. Newly true it is HELD
and handed; true again it stops the re-arm timer; false while HELD it starts that timer unless it runs (R81 to R84). -/
def Sys2Proof.Claims.SlipFollowsTheLoads : Prop :=
  ∀ (s : State) (l : Leg) (r : Report),
    let p := s.port l
    let holds := ∃ h c, s.slot h.index = some c
      ∧ (((s.leg l).phase = .stance ∧ (s.leg l).stance = some h)
        ∨ ((s.leg l).phase = .touchdown ∧ (s.leg l).target = some h))
      ∧ s.param 2 ≤ (r.normal.toNat : Int)
      ∧ c.content.friction.toNat * r.normal.toNat < r.tangential.toNat * 256
    (holds → p.slipHeld = false → s.reportSlip l r = (s.setPort l { p with slipHeld := true }).slipHanded l)
    ∧ (holds → p.slipHeld = true → s.reportSlip l r = s.setPort l { p with rearmTimer := .stopped })
    ∧ (¬holds → p.slipHeld = true → p.rearmTimer = .stopped →
        s.reportSlip l r = s.setPort l { p with rearmTimer := .running (s.paramNat 4) })
    ∧ (¬holds → (p.slipHeld = false ∨ p.rearmTimer ≠ .stopped) → s.reportSlip l r = s)

/-- A slip handed in STANCE charges the record, asks for BRACE, pends the SLIP node, latches the leg's flag, adds SLIP
and halts at the slip limit; in TOUCHDOWN it makes the target SUSPECT and the leg seeks; elsewhere it does nothing
(R3, R10, R12, R100, R102). The order of the notices is the model's choice (log 6). -/
def Sys2Proof.Claims.SlipByPhase : Prop :=
  ∀ (s : State) (l : Leg),
    (((s.leg l).phase ≠ .stance ∧ (s.leg l).phase ≠ .touchdown) → s.slipHanded l = s)
    ∧ (∀ h r f, (s.leg l).phase = .stance → (s.leg l).stance = some h → s.slot h.index = some r →
        r.state = .loaded l f →
        let c := s.chargeSlip h.index r
        let braced := ((s.setSlot h.index (some c)).sendOrder l .brace 0 0 0).pend nodeSlip (.slip l false h)
        let latched := (braced.setLeg l { s.leg l with slipLatched := true }).addReason .slip
        let halted := if s.paramNat 15 ≤ c.content.slips.toNat then latched.haltCause .slipLimit else latched
        s.slipHanded l = halted.deliver false .slipCount l c.content.slips.toNat)
    ∧ (∀ h r, (s.leg l).phase = .touchdown → (s.leg l).target = some h → s.slot h.index = some r →
        r.state = .target l →
        s.slipHanded l =
          ((((s.setSlot h.index (some { s.chargeSlip h.index r with state := .suspect, tag := s.seq.stride })).enterSeeking
            l).pend nodeSlip (.slip l true h)).seekAndReport l))

/-- The slip test of a report, and the slip by the leg's phase (R81 to R84, R100, R102). -/
def Obligations.SlipsAreTestedAndTaken : Prop := SlipFollowsTheLoads ∧ SlipByPhase

/-- A leg lost in a linked phase holds nothing and is LOST with its timers stopped and flags clear; each record of its queue
and its target is CANDIDATE, its stance record SUSPECT or, with the check-failed flag set, FREE; the LEG node is pending and
every gait but OFF is HALTED. In UNSEEN and LOST nothing happens (R8, R12, R13, R60, R109, R127). -/
def Sys2Proof.Claims.LossReleasesEverything : Prop :=
  ∀ (s : State) (l : Leg),
    ((s.leg l).phase = .unseen ∨ (s.leg l).phase = .lost → s.legLost l = s)
    ∧ ((s.leg l).phase.linked = true →
        (s.legLost l).leg l =
          { phase := .lost, stance := none, target := none, bounce := 0, slipLatched := false, stepFlag := false,
            swingTimer := .stopped, descentTimer := .stopped, settleTimer := .stopped }
        ∧ (s.legLost l).queue l = []
        ∧ ((s.legLost l).node nodeLeg).pending ≠ none
        ∧ (s.seq.gait ≠ .off → (s.legLost l).seq.gait = .halted)
        ∧ (∀ h r, (s.leg l).target = some h → s.slot h.index = some r → r.state = .target l →
            (s.legLost l).slot h.index = some { r with state := .candidate, tag := s.seq.stride })
        ∧ (∀ h r, h ∈ s.queue l → s.slot h.index = some r → r.state = .reserved l →
            (s.legLost l).slot h.index = some { r with state := .candidate, tag := s.seq.stride })
        ∧ (∀ h r, (s.leg l).stance = some h → s.slot h.index = some r → r.state = .loaded l false →
            (s.legLost l).slot h.index = some { r with state := .suspect, tag := s.seq.stride })
        ∧ (∀ h r, (s.leg l).stance = some h → s.slot h.index = some r → r.state = .loaded l true →
            (s.legLost l).slot h.index = none ∧ (s.legLost l).gen h.index = s.gen h.index + 1))

/-- The loss of a leg tells the units in the order of R109's steps: the margin where the leg supported, the emptied queue, the
slip re-arm, the LEG node with kind LOST and the port's loss reason, the halt cause LEG_LOST, then the counts. A node pending
already keeps its detail. A gait that is not OFF or HALTED when LEG_LOST comes takes it as halt reason, and one HALTED keeps
its own (R60, R103, R109, R127, R150, R162). That order is the model's reading (log 8), the counts' place its choice
(log 6). -/
def Sys2Proof.Claims.LossTellsTheUnits : Prop :=
  ∀ (s : State) (l : Leg), (s.leg l).phase.linked = true →
    let detail : Detail := .leg l .lost (s.port l).loss
    let lost := (s.loseRecords l).setLeg l
      { phase := .lost, stance := none, target := none, bounce := 0, slipLatched := false, stepFlag := false,
        swingTimer := .stopped, descentTimer := .stopped, settleTimer := .stopped }
    let watched := if s.supportOf l = none then lost else lost.computeCurrent
    let reported := if s.queue l = [] then watched else watched.reportToSequencer l
    ∃ rearmed : State,
      ((∃ m, (reported.leg m).slipLatched = true) → rearmed = reported)
      ∧ ((∀ m, (reported.leg m).slipLatched = false) → rearmed = reported.removeReason .slip)
      ∧ let noted := rearmed.pend nodeLeg detail
        let counted := (noted.haltCause .legLost).deliver false .slipCount l 0
        s.legLost l = (if (s.leg l).target = none ∧ s.queue l = [] then counted else counted.recount)
        ∧ ((s.legLost l).node nodeLeg).pending = some ((s.node nodeLeg).pending.getD detail)
        ∧ (noted.seq.gait ≠ .off → noted.seq.gait ≠ .halted → (s.legLost l).seq.haltReason = some .legLost)
        ∧ (noted.seq.gait = .halted → (s.legLost l).seq.haltReason = noted.seq.haltReason)

/-- RELINK and the loss of a leg (R76, R77, R109). -/
def Obligations.RelinkAndLoss : Prop := RelinkDeclaresDown ∧ LossReleasesEverything ∧ LossTellsTheUnits

/-! ### The gait sequencer (chapter 6) -/

/-- The answer to GAIT and RESUME: the result and the gait report after the command (R124). -/
def Sys2Proof.Claims.gaitAnswered (t : State) (h : FrameHead) (code : BitVec 6) (r : Result) : State :=
  answered t h code r (gaitReport t.seq)

/-- The set without MARGIN, NO_FOOTHOLD, POSE_STALE and PAUSE (R119, R128). -/
def Sys2Proof.Claims.trimmed (r : HoldReasons) : HoldReasons :=
  { margin := false, noFoothold := false, poseStale := false, slip := r.slip, rebase := r.rebase, trip := r.trip,
    pause := false }

/-- A stance record of some leg has its check-failed flag set (R125, R130). -/
def Sys2Proof.Claims.StanceFailed (s : State) : Prop :=
  ∃ l h r o, (s.leg l).stance = some h ∧ s.slot h.index = some r ∧ r.state = .loaded o true

/-- The current margin is below the tip margin in force or DEGEN (R125, R130). -/
def Sys2Proof.Claims.Unbalanced (s : State) : Prop :=
  s.bal.current.value.toInt < s.param 1 ∨ s.bal.current.cls = .degen

/-- The gait follows the hold reason set while walking is selected: WALKING with a reason is HOLDING and pends the GAIT
node with the set, HOLDING without one is WALKING and pends nothing; any other gait stands (R115). -/
def Sys2Proof.Claims.GaitFollowsTheSet : Prop :=
  ∀ (s : State),
    (s.seq.gait = .walking → s.seq.reasons ≠ .empty →
      s.settleGait = ({ s with seq := { s.seq with gait := .holding } } : State).pend nodeGait
        (.gaitHolding s.seq.reasons))
    ∧ (s.seq.gait = .holding → s.seq.reasons = .empty →
      s.settleGait = { s with seq := { s.seq with gait := .walking } })
    ∧ ((s.seq.gait = .walking → s.seq.reasons = .empty) → (s.seq.gait = .holding → s.seq.reasons ≠ .empty) →
      s.settleGait = s)

/-- The set with one reason put in or taken out, the others as they stand (R114). -/
def Sys2Proof.Claims.withReason (r : HoldReasons) (x : HoldReason) (b : Bool) : HoldReasons :=
  match x with
  | .margin => { r with margin := b }
  | .noFoothold => { r with noFoothold := b }
  | .poseStale => { r with poseStale := b }
  | .slip => { r with slip := b }
  | .rebase => { r with rebase := b }
  | .trip => { r with trip := b }
  | .pause => { r with pause := b }

/-- A reason added by an event joins the set and the gait follows. The removal of a reason that is not in the set changes
nothing; one that is leaves it, the gait follows, and while walking is selected lift readiness is evaluated (R114, R115,
R118). -/
def Sys2Proof.Claims.ReasonsComeAndGo : Prop :=
  ∀ (s : State) (x : HoldReason),
    let put (b : Bool) : State := { s with seq := { s.seq with reasons := withReason s.seq.reasons x b } }
    let walking := s.seq.gait = .walking ∨ s.seq.gait = .holding
    let present := withReason s.seq.reasons x true = s.seq.reasons
    s.addReason x = (put true).settleGait
    ∧ (¬present → s.removeReason x = s)
    ∧ (present → walking → s.removeReason x = (put false).settleGait.evaluate)
    ∧ (present → ¬walking → s.removeReason x = put false)

/-- The hold reason set and the gait that follows it (R114, R115, R118). -/
def Obligations.GaitFollowsTheReasons : Prop := GaitFollowsTheSet ∧ ReasonsComeAndGo

/-- GAIT STAND: from OFF with all legs in STANCE, no failed stance record and a safe margin; from WALKING or HOLDING,
with a lift pending or a leg past UNLOADING to STOPPING, else to STANDING with an UNLOADING leg's lift withdrawn; in
STANDING and STOPPING nothing changes; otherwise it is refused (R119, R125). That the gait leaves walking before the
withdrawal is the model's reading (log 13). -/
def Obligations.StandChangesTheGait : Prop :=
  ∀ (h : FrameHead) (c : Client) (s : State), Arrives s h c → c ≠ .perception →
    let n := noted s h 16 1
    let give t r := Gives (.gaitStand h) s (gaitAnswered t h 16 r)
    let ready := (∀ l, (s.leg l).phase = .stance) ∧ ¬StanceFailed s ∧ ¬Unbalanced s
    let walking := s.seq.gait = .walking ∨ s.seq.gait = .holding
    let onTheWay := s.seq.liftPending ≠ none
      ∨ ∃ l, (s.leg l).phase.inFlight = true ∧ (s.leg l).phase ≠ .unloading
    (s.seq.gait = .off → ready → give { n with seq := { s.seq with gait := .standing } } .done)
    ∧ (s.seq.gait = .off → ¬ready → give n .wrongState)
    ∧ (s.seq.gait = .standing ∨ s.seq.gait = .stopping → give n .done)
    ∧ (s.seq.gait = .halted → give n .wrongState)
    ∧ (walking → onTheWay →
        give { n with seq := { s.seq with gait := .stopping, reasons := trimmed s.seq.reasons } } .done)
    ∧ (walking → ¬onTheWay →
        let standing : State := { n with seq := { s.seq with gait := .standing, reasons := trimmed s.seq.reasons } }
        let back := (((standing.withdrawLift .lf).withdrawLift .rf).withdrawLift .lh).withdrawLift .rh
        ((∀ l, (s.leg l).phase = .unloading → (s.leg l).target ≠ none → (s.queue l).length < 3) → give back .done)
        ∧ ((∃ l, (s.leg l).phase = .unloading ∧ (s.leg l).target ≠ none ∧ 3 ≤ (s.queue l).length) →
            give back.recount .done))

/-- GAIT WALK and PAUSE: WALK in STANDING with all legs in STANCE drops PAUSE, enters WALKING or HOLDING by the set and
evaluates lift readiness; in HOLDING it drops PAUSE and, where it was there, evaluates; in WALKING it changes nothing. PAUSE
in WALKING or HOLDING adds PAUSE. Otherwise they are refused (R115, R126). -/
def Obligations.WalkAndPauseSelectWalking : Prop :=
  ∀ (h : FrameHead) (c : Client) (s : State), Arrives s h c → c ≠ .perception →
    let n := noted s h 16 1
    let walk t r := Gives (.gaitWalk h) s (gaitAnswered t h 16 r)
    let pause t r := Gives (.gaitPause h) s (gaitAnswered t h 16 r)
    let allStance := ∀ l, (s.leg l).phase = .stance
    let dropped (g : Gait) : State :=
      { n with seq := { s.seq with gait := g, reasons := { s.seq.reasons with pause := false } } }
    (s.seq.gait = .standing → allStance → walk ((dropped .walking).settleGait).evaluate .done)
    ∧ (s.seq.gait = .standing → ¬allStance → walk n .wrongState)
    ∧ (s.seq.gait = .holding → s.seq.reasons.pause = true → walk ((dropped .holding).settleGait).evaluate .done)
    ∧ (s.seq.gait = .holding → s.seq.reasons.pause = false → walk n .done)
    ∧ (s.seq.gait = .walking → walk n .done)
    ∧ (s.seq.gait = .off ∨ s.seq.gait = .stopping ∨ s.seq.gait = .halted → walk n .wrongState)
    ∧ (s.seq.gait = .walking ∨ s.seq.gait = .holding →
        pause ({ n with seq := { s.seq with reasons := { s.seq.reasons with pause := true } } } : State).settleGait .done)
    ∧ (s.seq.gait ≠ .walking → s.seq.gait ≠ .holding → pause n .wrongState)

/-- GAIT OFF in STANDING or HALTED with no leg in flight and no lift pending clears the halt reason and the walk's reasons;
RESUME of SUPERVISOR leaves HALTED for STANDING with four legs in STANCE, no lift pending, no failed stance record and a
safe margin; in OFF, OFF answers DONE and changes nothing; elsewhere both are refused (R124, R128, R130). -/
def Obligations.OffAndResumeLeaveTheGait : Prop :=
  ∀ (h : FrameHead) (c : Client) (s : State), Arrives s h c →
    let moving := (∃ l, (s.leg l).phase.inFlight = true) ∨ s.seq.liftPending ≠ none
    let fit := s.seq.gait = .halted ∧ s.seq.liftPending = none ∧ (∀ l, (s.leg l).phase = .stance) ∧ ¬StanceFailed s
      ∧ ¬Unbalanced s
    let n := noted s h 16 1
    let off t r := Gives (.gaitOff h) s (gaitAnswered t h 16 r)
    (c ≠ .perception →
      (s.seq.gait = .standing ∨ s.seq.gait = .halted → moving → off n .wrongState)
      ∧ (s.seq.gait = .standing ∨ s.seq.gait = .halted → ¬moving →
          off { n with seq := { s.seq with gait := .off, haltReason := none, reasons := trimmed s.seq.reasons } } .done)
      ∧ (s.seq.gait = .off → off n .done)
      ∧ (s.seq.gait = .walking ∨ s.seq.gait = .holding ∨ s.seq.gait = .stopping → off n .wrongState))
    ∧ (c = .supervisor →
      let m := noted s h 17 0
      (fit → Gives (.resume h) s
        (gaitAnswered { m with seq := { s.seq with gait := .standing, haltReason := none } } h 17 .done))
      ∧ (¬fit → Gives (.resume h) s (gaitAnswered m h 17 .wrongState)))

/-- GAIT HALT gives the halt cause CLIENT: in every state other than HALTED it enters HALTED with reason CLIENT, from OFF
too; in HALTED it leaves the first halt reason and answers DONE; broadcast it takes the same effect, sets the BROADCAST
flag of the status word and sends no response (R129). -/
def Obligations.GaitHaltHaltsAsClient : Prop :=
  ∀ (h : FrameHead) (c : Client) (s : State), c ≠ .perception →
    let n := noted s h 16 1
    let b : State := { n with lanes := { n.lanes with broadcast := true } }
    (∀ u, u = n ∨ u = b →
      (s.seq.gait ≠ .halted → (u.haltCause .client).seq.gait = .halted
        ∧ (u.haltCause .client).seq.haltReason = some .client)
      ∧ (s.seq.gait = .halted → u.haltCause .client = u))
    ∧ (Arrives s h c → Gives (.gaitHalt h) s (gaitAnswered (n.haltCause .client) h 16 .done))
    ∧ (clientOf h.client = some c → h.station = 15 → s.sendingOn h.lane = false →
        (∀ r, s.lanes.inFlight = some r → r.thenReset = false) →
        Gives (.gaitHalt h) s (b.haltCause .client)
          ∧ (b.haltCause .client).statusWord.getLsbD 6 = true
          ∧ (b.haltCause .client).lanes.inFlight = none)

/-- GAIT FORWARD and BACKWARD in OFF and STANDING name the pattern and put the order pointer on its first leg, LH and RF,
the pattern in force or not; in the other gaits they are refused with WRONG_STATE and nothing changes (R116). Between
resets the pointer changes by them and by the advance at a stance confirmation alone, where a raw frame row or REPORT with
mode word 5 or 6 may stand for one of them (R116, R117). -/
def Obligations.PatternModesRestartTheOrder : Prop :=
  (∀ (h : FrameHead) (c : Client) (s : State), Arrives s h c → c ≠ .perception →
    let n := noted s h 16 1
    (s.seq.gait = .off ∨ s.seq.gait = .standing →
      Gives (.gaitForward h) s
          (gaitAnswered { n with seq := { s.seq with pattern := .forward, pointer := .lh } } h 16 .done)
        ∧ Gives (.gaitBackward h) s
          (gaitAnswered { n with seq := { s.seq with pattern := .backward, pointer := .rf } } h 16 .done))
    ∧ (s.seq.gait ≠ .off → s.seq.gait ≠ .standing →
        Gives (.gaitForward h) s (gaitAnswered n h 16 .wrongState)
          ∧ Gives (.gaitBackward h) s (gaitAnswered n h 16 .wrongState)))
  ∧ ∀ (i : Instr) (s t : State), Gives i s t → t.seq.pointer = s.seq.pointer
      ∨ (∃ h, i = .gaitForward h ∨ i = .gaitBackward h ∨ i = .gaitReport h 5 ∨ i = .gaitReport h 6)
      ∨ (∃ l, i = .settleTimerExpiry l)
      ∨ (∃ straps, t.seq = (State.resetWith straps).seq)
      ∨ ∃ l w d k, i = .commandFrameCheckFailure l w d k ∨ i = .frameForOtherStation l w d k
          ∨ i = .malformedFrame l w d k

/-- Entry to HALTED: where the cause applies and the gait is not HALTED, the gait is HALTED with that reason, walking is left
with its four reasons out of the set, a leg in UNLOADING is back in STANCE, every leg in STANCE with its link UP has a BRACE
order pending, the tip condition is over and the GAIT node is pending; otherwise nothing changes. A withdrawn target stands
RESERVED at the front of its queue, a fourth entry going back to CANDIDATE, and on leaving OFF each SEEKING leg asks for a
take; the entry is these parts in their order and nothing else. TIP applies in STANDING, WALKING, HOLDING and STOPPING,
SUPPORT_LOST and LEG_LOST in every gait but OFF, the other causes in every gait (R59, R105, R119, R127, R145). The order of
the SEEKING legs is the model's choice (log 24). -/
def Sys2Proof.Claims.EntryStopsTheRobot : Prop :=
  ∀ (s : State) (c : HaltCause),
    let applies := match c with
      | .tip => s.seq.gait ≠ .off
      | .supportLost | .legLost => s.seq.gait ≠ .off
      | _ => True
    let t := s.haltEntry c
    (s.seq.gait = .halted ∨ ¬applies → t = s)
    ∧ (s.seq.gait ≠ .halted → applies →
        t.seq = { s.seq with
          gait := .halted
          haltReason := some c
          reasons := if s.seq.gait = .walking ∨ s.seq.gait = .holding then trimmed s.seq.reasons else s.seq.reasons }
        ∧ t.attn.tipHolds = false
        ∧ (t.node nodeGait).pending =
            (if (s.node nodeGait).pending = none then some (.gaitHalted c) else (s.node nodeGait).pending)
        ∧ ∀ l,
            ((s.leg l).phase ≠ .unloading → (s.leg l).phase ≠ .seeking → t.leg l = s.leg l)
            ∧ ((s.leg l).phase = .unloading → t.leg l =
                { s.leg l with
                  phase := .stance, target := none, bounce := 0, stepFlag := false, swingTimer := .stopped })
            ∧ ((s.leg l).phase = .stance ∨ (s.leg l).phase = .unloading → (s.port l).linkUp = true →
                (t.port l).lastKind = some .brace ∧ ∃ o, (t.port l).pending = some o ∧ o.kind = .brace))
    ∧ (s.seq.gait ≠ .halted → applies →
        let reasons := if s.seq.gait = .walking ∨ s.seq.gait = .holding then trimmed s.seq.reasons else s.seq.reasons
        let named : State := { s with seq := { s.seq with gait := .halted, haltReason := some c, reasons := reasons } }
        let withdrawn := (((named.withdrawLift .lf).withdrawLift .rf).withdrawLift .lh).withdrawLift .rh
        let brace (l : Leg) (u : State) : State :=
          if (u.leg l).phase = .stance then u.sendOrder l .brace 0 0 0 else u
        let braced := brace .rh (brace .lh (brace .rf (brace .lf withdrawn)))
        let noted := ({ braced with attn := { braced.attn with tipHolds := false } } : State).pend nodeGait (.gaitHalted c)
        t = (if s.seq.gait = .off then (((noted.seek .lf).seek .rf).seek .lh).seek .rh else noted)
        ∧ ∀ l h r, (s.leg l).phase = .unloading → (s.leg l).target = some h → s.slot h.index = some r →
            r.state = .target l →
            let back := some { r with state := .reserved l, tag := s.seq.stride }
            ((s.queue l).length < 3 → t.queue l = h :: s.queue l ∧ t.slot h.index = back)
            ∧ ∀ a b d r', s.queue l = [a, b, d] → d.index ≠ h.index → s.slot d.index = some r' →
                r'.state = .reserved l →
                t.queue l = [h, a, b] ∧ t.slot h.index = back
                ∧ t.slot d.index = some { r' with state := .candidate, tag := s.seq.stride })

/-- A halt cause is the entry and, where it halted the gait and a lift withdrawal pushed a record out of a full queue, the
recount of the candidates at once (R59, R127, R150); that the recount comes there is the model's choice (log 25). -/
def Sys2Proof.Claims.CauseIsTheEntryAndItsRecount : Prop :=
  (∀ (s : State) (c : HaltCause), s.haltCause c = s.recountOverflow (s.haltEntry c))
  ∧ ∀ s t : State,
      let overflows := s.seq.gait ≠ .halted ∧ t.seq.gait = .halted
        ∧ ∃ l, (s.leg l).phase = .unloading ∧ (s.leg l).target ≠ none ∧ 3 ≤ (s.queue l).length
      (¬overflows → s.recountOverflow t = t)
      ∧ (overflows → s.recountOverflow t = t.deliverOnly false .candidateCount .lf t.candidateCount)

/-- Entry to HALTED, and the halt cause that brings it about (R59, R105, R119, R127, R145, R150). -/
def Obligations.HaltEntryStopsTheRobot : Prop := EntryStopsTheRobot ∧ CauseIsTheEntryAndItsRecount

/-- Lift readiness: nothing outside walking or with REBASE in the set. With a leg in flight, a lift pending or the next leg
not in STANCE, MARGIN, NO_FOOTHOLD and POSE_STALE leave the set. Else the lift margin is computed, and, with walking still
selected, the three reasons become what the front, the pose and the margin say, the gait follows, and with the set empty the
next leg is asked to lift. A front that fails its check becomes FREE and leaves the queue; that evaluation ends with
NO_FOOTHOLD, and a further one follows on the queue that is left; a front that fails the slope or the confidence test is not
verified and stays (R21, R120, R121, R144). -/
def Obligations.ReadinessAsksTheNextLeg : Prop :=
  ∀ (s : State),
    let l := s.seq.pointer
    let walking (u : State) := u.seq.gait = .walking ∨ u.seq.gait = .holding
    let stops := (∃ m, (s.leg m).phase.inFlight = true) ∨ s.seq.liftPending ≠ none ∨ (s.leg l).phase ≠ .stance
    let with3 (u : State) (a b d : Bool) : State :=
      { u with seq := { u.seq with reasons := { u.seq.reasons with margin := a, noFoothold := b, poseStale := d } } }
    (¬walking s ∨ s.seq.reasons.rebase = true → s.evaluate = s)
    ∧ (walking s → s.seq.reasons.rebase = false → stops → s.evaluate = (with3 s false false false).settleGait)
    ∧ (walking s → s.seq.reasons.rebase = false → ¬stops → ∀ usable : Bool,
        (usable = true ↔ ∃ q rest r, s.queue l = q :: rest ∧ s.slot q.index = some r ∧ r.state = .reserved l
          ∧ slopePasses r.content = true ∧ s.param 13 ≤ (r.content.confidence.toNat : Int)) →
        (∀ q rest r, s.queue l = q :: rest → s.slot q.index = some r → r.state = .reserved l →
          slopePasses r.content = true → s.param 13 ≤ (r.content.confidence.toNat : Int) →
          checkCode (coveredWords r.content (s.gen q.index)) = r.content.check) →
        let m := s.computeLift l
        let low := decide (m.bal.lift.value.toInt < m.param 0 ∨ m.bal.lift.cls = .degen)
        let settled := (with3 m low (!usable) (s.bal.freshness != .fresh)).settleGait
        (¬walking m → s.evaluate = m)
        ∧ (walking m → settled.seq.reasons ≠ .empty → s.evaluate = settled)
        ∧ (walking m → settled.seq.reasons = .empty →
            s.evaluate = { settled with seq := { settled.seq with liftPending := some l } }))
    ∧ (walking s → s.seq.reasons.rebase = false → ¬stops → ∀ q rest r, s.queue l = q :: rest →
        s.slot q.index = some r → r.state = .reserved l → slopePasses r.content = true →
        s.param 13 ≤ (r.content.confidence.toNat : Int) →
        checkCode (coveredWords r.content (s.gen q.index)) ≠ r.content.check →
        let m := (freedByCheck (s.setQueue l ((s.queue l).filter fun e => e.index ≠ q.index)) q.index).computeLift l
        let low := decide (m.bal.lift.value.toInt < m.param 0 ∨ m.bal.lift.cls = .degen)
        let settled := (with3 m low true (s.bal.freshness != .fresh)).settleGait
        s.evaluate = (if m.seq.gait = .walking ∨ m.seq.gait = .holding then settled else m).evaluate)

/-- A stance confirmation told with the step flag set moves the order pointer to the leg that follows in the pattern; after
the pattern's last leg the stride counter adds one, from 4095 to 0, and an expiry sweep starts at index 0. STOPPING with no
leg in flight and no lift pending then ends in STANDING with the GAIT node pending, and walking evaluates lift readiness
(R36, R117). -/
def Obligations.ConfirmationAdvancesTheOrder : Prop :=
  ∀ (s : State) (l : Leg) (flag : Bool),
    let following : Leg := match s.seq.pattern, l with
      | .forward, .lh => .lf
      | .forward, .lf => .rh
      | .forward, .rh => .rf
      | .forward, .rf => .lh
      | .backward, .rf => .rh
      | .backward, .rh => .lf
      | .backward, .lf => .lh
      | .backward, .lh => .rf
    let last := (s.seq.pattern = .forward ∧ l = .rf) ∨ (s.seq.pattern = .backward ∧ l = .lh)
    let pointed : State := { s with seq := { s.seq with pointer := following } }
    let after (u : State) : State :=
      let ended := if u.seq.gait = .stopping ∧ u.anyInFlight = false ∧ u.seq.liftPending = none then
          ({ u with seq := { u.seq with gait := .standing } } : State).pend nodeGait .gaitStanding
        else u
      if ended.seq.gait = .walking ∨ ended.seq.gait = .holding then ended.evaluate else ended
    (flag = false → s.confirmationTold l flag = after s)
    ∧ (flag = true → ¬last → s.confirmationTold l flag = after pointed)
    ∧ (flag = true → last → s.confirmationTold l flag = after
        { pointed with
          seq := { pointed.seq with stride := BitVec.ofNat 12 ((s.seq.stride.toNat + 1) % 4096) }
          store := { s.store with sweep := some 0 } })

/-! ### The balance monitor (chapter 7) -/

/-- POSE: a word out of range is refused; an accepted pose is FRESH with its timer started afresh, then the current
margin, the PITCH and ROLL terms and, while walking, lift readiness follow. The pose timer's expiry makes the pose
STALE and, while walking, evaluates lift readiness (R134, R135). PITCH before ROLL is the model's order (log 11), and
that a stopped timer does not expire its choice (log 4). -/
def Obligations.PoseIsHeldUntilItGoesStale : Prop :=
  ∀ (h : FrameHead) (c : Client) (s : State) (x y pitch roll : Word) (p : Nat),
    let walking (u : State) := if u.seq.gait = .walking ∨ u.seq.gait = .holding then u.evaluate else u
    (Arrives s h c → c ≠ .perception → s.rebasing = false →
      let bad := Lowest x ∨ Lowest y ∨ pitch.toInt < -900 ∨ 900 < pitch.toInt ∨ roll.toInt < -900 ∨ 900 < roll.toInt
      let n := noted s h 18 4
      let held : State :=
        { n with
          bal := { s.bal with pose := ⟨x, y, pitch, roll⟩, freshness := .fresh, poseTimer := .running (s.paramNat 7) } }
      (bad → Gives (.pose h x y pitch roll) s (told s h 18 4 .outOfRange []))
      ∧ (¬bad → Gives (.pose h x y pitch roll) s
          (answered (walking ((held.computeCurrent.deliver false .pitch .lf pitch.toInt).deliver false .roll .lf
            roll.toInt)) h 18 .done [])))
    ∧ (s.bal.poseTimer = .stopped → Gives .poseTimerExpiry s (begun s))
    ∧ (s.bal.poseTimer = .running p →
        Gives .poseTimerExpiry s
          (walking { begun s with bal := { s.bal with freshness := .stale, poseTimer := .stopped } }))

/-- The edge distance: with c the cross product and q the squared length of an edge between distinct points of the frame,
L is the least integer whose square is at least q where c is 0 or positive and the greatest whose square is at most q where
c is negative, and the distance is c divided by L rounded toward minus infinity; c and q stay below 2 to the 34 (R140). -/
def Obligations.EdgeDistanceRoundsDown : Prop :=
  ∀ (p a b : Point),
    (∀ u ∈ [p.x, p.y, a.x, a.y, b.x, b.y], -32768 ≤ u ∧ u ≤ 32767) → a ≠ b →
      let c := (b.x - a.x) * (p.y - a.y) - (b.y - a.y) * (p.x - a.x)
      let q := (b.x - a.x) ^ 2 + (b.y - a.y) ^ 2
      1 ≤ q ∧ q < 2 ^ 34 ∧ -2 ^ 34 < c ∧ c < 2 ^ 34
      ∧ ∃ L : Int, 0 < L ∧ edgeDistance p a b = c / L ∧ L * (c / L) ≤ c ∧ c < L * (c / L + 1)
          ∧ (0 ≤ c → q ≤ L ^ 2 ∧ ∀ m : Int, 0 ≤ m → q ≤ m ^ 2 → L ≤ m)
          ∧ (c < 0 → L ^ 2 ≤ q ∧ ∀ m : Int, 0 ≤ m → m ^ 2 ≤ q → m ≤ L)

/-- A point lies inside or on the boundary of a triangle, which may be a segment or a point: it is a weighted mean of the
vertices (R139 step 5). -/
def Sys2Proof.Claims.Within (q a b c : Point) : Prop :=
  ∃ i j k : Nat, 0 < i + j + k
    ∧ (i + j + k : Int) * q.x = i * a.x + j * b.x + k * c.x ∧ (i + j + k : Int) * q.y = i * a.y + j * b.y + k * c.y

/-- The margin of a hull: the least distance of the CoM from its edges, each taken from a vertex to the next, classified and
clipped (R140, R141). -/
def Sys2Proof.Claims.LeastOver (p : Point) (ring : List Point) (m : Margin) : Prop :=
  let edges := ring.zip (ring.tail ++ ring.head?.toList)
  ∃ d, m = marginOfLeast d ∧ (∃ e ∈ edges, edgeDistance p e.1 e.2 = d) ∧ ∀ e ∈ edges, d ≤ edgeDistance p e.1 e.2

/-- The margin of a set of points: −32768 and DEGEN with no pose, with fewer than three points, and where every three lie on
one line; else of three points the triangle's in counter-clockwise order; else of four points that of the three that remain
when the first, in leg order, that lies inside or on the triangle of the other three is dropped, and with none to drop that
of the order of the four in which every turn is to the left (R139 to R141). -/
def Sys2Proof.Claims.MarginIsOverTheHull : Prop :=
  (∀ points, marginOf none points = ⟨0x8000, .degen⟩)
  ∧ ∀ p : Point,
    (∀ points : List Point, points.length < 3 → marginOf (some p) points = ⟨0x8000, .degen⟩)
    ∧ (∀ a b c,
        (cross a b c = 0 → marginOf (some p) [a, b, c] = ⟨0x8000, .degen⟩)
        ∧ (0 < cross a b c → LeastOver p [a, b, c] (marginOf (some p) [a, b, c]))
        ∧ (cross a b c < 0 → LeastOver p [a, c, b] (marginOf (some p) [a, b, c])))
    ∧ ∀ a b c d,
        let m := marginOf (some p) [a, b, c, d]
        let flat := cross a b c = 0 ∧ cross a b d = 0 ∧ cross a c d = 0 ∧ cross b c d = 0
        (flat → m = ⟨0x8000, .degen⟩)
        ∧ (¬flat →
            (Within a b c d → m = marginOf (some p) [b, c, d])
            ∧ (¬Within a b c d → Within b a c d → m = marginOf (some p) [a, c, d])
            ∧ (¬Within a b c d → ¬Within b a c d → Within c a b d → m = marginOf (some p) [a, b, d])
            ∧ (¬Within a b c d → ¬Within b a c d → ¬Within c a b d → Within d a b c → m = marginOf (some p) [a, b, c])
            ∧ (¬Within a b c d → ¬Within b a c d → ¬Within c a b d → ¬Within d a b c →
                ∃ w x y z, [w, x, y, z].Perm [a, b, c, d] ∧ 0 < cross w x y ∧ 0 < cross x y z ∧ 0 < cross y z w
                  ∧ 0 < cross z w x ∧ LeastOver p [w, x, y, z] m))

/-- The margin is never greater than the exact signed distance: over the edges of a hull of three or four points of the
frame, consecutive ones distinct, the least distance is at most the cross product divided by the true length of each edge;
the margin is that least value with its sign's classification, and −32767 with SATURATED below the range (R141). -/
def Sys2Proof.Claims.MarginIsAtMostTheExactDistance : Prop :=
  (∀ (p a b c : Point) (more : Option Point),
    let ring := match more with
      | none => [a, b, c]
      | some d => [a, b, c, d]
    let edges := ring.zip (ring.tail ++ [a])
    (∀ v ∈ p :: ring, -32768 ≤ v.x ∧ v.x ≤ 32767 ∧ -32768 ≤ v.y ∧ v.y ≤ 32767) →
    (∀ e ∈ edges, e.1 ≠ e.2) →
      ∀ e ∈ edges,
        ((least (edgeDistances p ring) : Int) : ℝ) ≤
          ((cross e.1 e.2 p : Int) : ℝ) / Real.sqrt (((e.2.x - e.1.x) ^ 2 + (e.2.y - e.1.y) ^ 2 : Int) : ℝ))
  ∧ ∀ d : Int, d ≤ 32767 →
      (d < -32767 → (marginOfLeast d).value.toInt = -32767 ∧ (marginOfLeast d).cls = .saturated)
      ∧ (-32767 ≤ d → (marginOfLeast d).value.toInt = d
          ∧ (0 < d → (marginOfLeast d).cls = .inside) ∧ (d = 0 → (marginOfLeast d).cls = .onEdge)
          ∧ (d < 0 → (marginOfLeast d).cls = .outside))

/-- The margin is formed over the hull of its points and never exceeds the exact distance to any hull edge (R139 to R141). -/
def Obligations.MarginIsNeverOptimistic : Prop := MarginIsOverTheHull ∧ MarginIsAtMostTheExactDistance

/-- The current margin: nothing while a rebase walk is in flight. Where every member of the support set verifies, the margin
over the set is recorded with its classification and legs and the sticky flags; below the tip margin or DEGEN, in STANDING,
WALKING, HOLDING and STOPPING, the TIP node takes it and the gait halts with cause TIP; then the CURRENT_MARGIN terms are
served. With no pose held or fewer than three support points the margin is −32768 and DEGEN (R137 to R139, R142, R145). -/
def Obligations.CurrentMarginTestsForTip : Prop :=
  ∀ (s : State),
    (s.rebasing = true → s.computeCurrent = s)
    ∧ (s.bal.freshness = .none ∨ (s.supportPoints none).length < 3 →
        s.marginWithout none = { value := 0x8000, cls := .degen })
    ∧ (s.rebasing = false →
        (∀ l i r, s.supportOf l = some (i, r) → checkCode (coveredWords r.content (s.gen i)) = r.content.check) →
        let m := s.marginWithout none
        let recorded : State :=
          { s with
            bal := { s.bal with
              current := m
              currentLegs := ⟨(s.supportOf .lf).isSome, (s.supportOf .rf).isSome, (s.supportOf .lh).isSome,
                (s.supportOf .rh).isSome⟩
              sat := s.bal.sat || m.cls == .saturated
              degen := s.bal.degen || m.cls == .degen } }
        let tips := (s.seq.gait ≠ .off ∧ s.seq.gait ≠ .halted) ∧ (m.value.toInt < s.param 1 ∨ m.cls = .degen)
        (¬tips → s.computeCurrent = recorded.deliver false .currentMargin .lf m.value.toInt)
        ∧ (tips → s.computeCurrent =
            (((({ recorded with attn := { s.attn with tipHolds := true } } : State).pend nodeTip (.tip m)).haltCause
              .tip).deliver false .currentMargin .lf m.value.toInt)))

/-! ### Watch terms and trips (chapter 8) -/

/-- The truth a term takes from a value: enabled, and below the threshold or at or above it by its relation (R149, R151). -/
def Sys2Proof.Claims.truthOf (w : WatchTerm) (v : Int) : Bool :=
  w.enabled && (match w.relation with
    | .below => decide (v < w.threshold.toInt)
    | .atOrAbove => decide (w.threshold.toInt ≤ v))

/-- A delivery replaces the copy of its source and the truth of the terms that watch it, and with every trip DISARMED or
FIRED does nothing else. TERM of SUPERVISOR replaces a term whole, with the truth its source's copy gives it, and the trips
that use it are tested where its truth changed; a field out of range is refused (R150, R151, R152). That a recount for a
record which a halt pushes out of a full queue comes after those tests is the model's choice (log 25). -/
def Obligations.TermsFollowTheirSources : Prop :=
  (∀ (s : State) (inEvaluation : Bool) (src : Source) (l : Leg) (v : Int),
    (∀ n : Fin 4, (s.trip n).state = .disarmed ∨ (s.trip n).state = .fired) →
      let perLeg := src ∈ [Source.normalLoad, .tangentialRatio, .overtemp, .slipCount]
      let t := s.deliver inEvaluation src l v
      t = { s with trips := { t.trips with trips := s.trips.trips } }
      ∧ t.trips.copies.read src l = v
      ∧ (∀ src' m, (src' ≠ src ∨ (perLeg ∧ m ≠ l)) → t.trips.copies.read src' m = s.trips.copies.read src' m)
      ∧ ∀ n : Fin 8,
          let w := s.trips.terms[n]
          t.trips.terms[n] =
            (if w.source = src ∧ (perLeg → w.leg = l) then { w with truth := truthOf w v } else w))
  ∧ ∀ (h : FrameHead) (s : State) (number enable source leg relation threshold : Word), Arrives s h .supervisor →
      ((7 < number.toNat ∨ 1 < enable.toNat ∨ 8 < source.toNat ∨ 3 < leg.toNat ∨ 1 < relation.toNat) →
        Gives (.term h number enable source leg relation threshold) s (told s h 20 6 .outOfRange []))
      ∧ ∀ (n : Fin 8) (e : Bool) (src : Source) (l : Leg) (rel : Relation), number.toNat = n.val →
          enable.toNat = e.toNat → sourceOf source.toNat = some src → LegWord leg l →
          relation.toNat = (match rel with | .below => 0 | .atOrAbove => 1) →
            let w : WatchTerm := ⟨e, src, l, rel, threshold, false⟩
            let terms := s.trips.terms.set n { w with truth := truthOf w (s.trips.copies.read src l) }
            let set : State := { noted s h 20 6 with trips := { s.trips with terms := terms } }
            Gives (.term h number enable source leg relation threshold) s
              (answered ((noted s h 20 6).recountOverflow
                (set.testTrips false (changedTerms s.trips.terms terms) (truthBits terms))) h 20 .done [])

/-- A trip's test, given the terms whose truth changed and those that are true: an ARMED ALL or ANY trip fires when a term of
its mask changed and its combination is true, an empty mask's never; an ARMED THEN trip whose first term became true is
PRIMED with its window started, and fires where the second is true; a PRIMED one fires when its second became true; any
other stands. Firing makes it FIRED with its window stopped, pends the TRIP node and takes the action (R153 to R156). -/
def Sys2Proof.Claims.TestsPrimeAndFire : Prop :=
  (∀ (t : Trip) (changed truths : BitVec 8),
    let became (n : Fin 8) := changed.getLsbD n.val = true ∧ truths.getLsbD n.val = true
    let touched := ∃ n : Fin 8, t.mask.getLsbD n.val = true ∧ changed.getLsbD n.val = true
    let anyTrue := ∃ n : Fin 8, t.mask.getLsbD n.val = true ∧ truths.getLsbD n.val = true
    let every := ∀ n : Fin 8, t.mask.getLsbD n.val = true → truths.getLsbD n.val = true
    (t.mode ≠ .sequence → (t.test changed truths).1 = t
      ∧ ((t.test changed truths).2 = true ↔
          t.state = .armed ∧ touched ∧ (t.mode = .any → anyTrue) ∧ (t.mode = .all → every)))
    ∧ (t.mode = .sequence → t.state = .armed → became t.first →
        t.test changed truths = ({ t with state := .primed, timer := .running t.window }, truths.getLsbD t.second.val))
    ∧ (t.mode = .sequence → t.state = .armed → ¬became t.first → t.test changed truths = (t, false))
    ∧ (t.mode = .sequence → t.state = .primed → (t.test changed truths).1 = t
        ∧ ((t.test changed truths).2 = true ↔ became t.second))
    ∧ (t.state = .disarmed ∨ t.state = .fired → t.test changed truths = (t, false)))
  ∧ ∀ (s : State) (n : Fin 4),
      let fired := ({ s with
        trips := { s.trips with
          trips := s.trips.trips.set n { s.trip n with state := .fired, timer := .stopped } } } : State).pend nodeTrip
          (.trip n)
      ((s.trip n).action = .attention → s.fireTrip false n = fired)
      ∧ ((s.trip n).action = .hold → s.fireTrip false n = fired.addReason .trip)
      ∧ ((s.trip n).action = .halt → s.fireTrip false n = fired.haltEntry .trip)

/-- Within a lift readiness evaluation a trip that fires does the same, but that a HOLD action adds TRIP to the set and the
gait follows only when the evaluation ends (R121, R156). -/
def Sys2Proof.Claims.FiringWithinAnEvaluation : Prop :=
  ∀ (s : State) (n : Fin 4),
    ((s.trip n).action ≠ .hold → s.fireTrip true n = s.fireTrip false n)
    ∧ ((s.trip n).action = .hold →
        let fired := ({ s with
          trips := { s.trips with
            trips := s.trips.trips.set n { s.trip n with state := .fired, timer := .stopped } } } : State).pend nodeTrip
            (.trip n)
        s.fireTrip true n =
          { fired with seq := { fired.seq with reasons := { fired.seq.reasons with trip := true } } })

/-- A delivery replaces the copy and the truths of the terms that watch it; then each trip is tested, in the order of the
numbers and on the truths as the whole delivery leaves them, and each that fires takes its action before the next is tested.
Where that halts the gait and a withdrawal pushes a record out of a full queue, the candidates are recounted at once (R59,
R150, R151, R154 to R156); that the recount comes there is the model's choice (log 25). -/
def Sys2Proof.Claims.DeliveriesTestTheTripsInOrder : Prop :=
  ∀ (s : State) (inEvaluation : Bool) (src : Source) (l : Leg) (v : Int),
    let perLeg := src ∈ [Source.normalLoad, .tangentialRatio, .overtemp, .slipCount]
    ∃ (copies : SourceCopies) (terms : Vector WatchTerm 8) (changed truths : BitVec 8),
      copies.read src l = v
      ∧ (∀ src' m, (src' ≠ src ∨ (perLeg ∧ m ≠ l)) → copies.read src' m = s.trips.copies.read src' m)
      ∧ (∀ n : Fin 8,
          let w := s.trips.terms[n]
          terms[n] = (if w.source = src ∧ (perLeg → w.leg = l) then { w with truth := truthOf w v } else w)
          ∧ truths.getLsbD n.val = terms[n].truth
          ∧ changed.getLsbD n.val = (terms[n].truth != w.truth))
      ∧ let told : State := { s with trips := { s.trips with copies := copies, terms := terms } }
        let test (n : Fin 4) (u : State) : State :=
          let r := (u.trip n).test changed truths
          let moved : State := { u with trips := { u.trips with trips := u.trips.trips.set n r.1 } }
          if r.2 then moved.fireTrip inEvaluation n else moved
        let tested := test 3 (test 2 (test 1 (test 0 told)))
        let overflows := s.seq.gait ≠ .halted ∧ tested.seq.gait = .halted
          ∧ ∃ m, (s.leg m).phase = .unloading ∧ (s.leg m).target ≠ none ∧ 3 ≤ (s.queue m).length
        s.deliverOnly inEvaluation src l v = tested
        ∧ (¬overflows → s.deliver inEvaluation src l v = tested)
        ∧ (overflows → s.deliver inEvaluation src l v =
            tested.deliverOnly false .candidateCount .lf tested.candidateCount)

/-- The slope test: the tangent of the grade, which grades 0 to 12 have, is less than the friction estimate. The candidate
count is the number of CANDIDATE records that pass it and have at least the min confidence in force, unverified; a recount
delivers that number as CANDIDATE_COUNT (R21, R22, R150). -/
def Sys2Proof.Claims.RecountsDeliverTheCandidates : Prop :=
  (∀ c : StoredContent, slopePasses c = true ↔
    ∃ tangent ∈ ([0, 22, 45, 69, 93, 119, 148, 179, 215, 256, 305, 366, 443] : List Nat)[c.slope.toNat]?,
      tangent < c.friction.toNat)
  ∧ ∀ s : State, ∃ counted : List RecordIndex,
      counted.Nodup
      ∧ (∀ i, i ∈ counted ↔ ∃ r, s.slot i = some r ∧ r.state = .candidate ∧ slopePasses r.content = true
          ∧ s.param 13 ≤ (r.content.confidence.toNat : Int))
      ∧ s.candidateCount = counted.length
      ∧ s.recount = s.deliver false .candidateCount .lf counted.length

/-- The test of a trip, its firing in and outside an evaluation, the tests that a delivery makes, and the delivery of a recount
(R150, R151, R153 to R156). -/
def Obligations.TripsFireOnTheirTerms : Prop :=
  TestsPrimeAndFire ∧ FiringWithinAnEvaluation ∧ DeliveriesTestTheTripsInOrder ∧ RecountsDeliverTheCandidates

/-- After a TRIP operation: with no HOLD trip FIRED, TRIP leaves the hold reason set (R118, R157). -/
def Sys2Proof.Claims.tripTold (s : State) : State :=
  if ∃ n : Fin 4, (s.trip n).state = .fired ∧ (s.trip n).action = .hold then s else s.removeReason .trip

/-- TRIP of SUPERVISOR: CONFIGURE leaves the trip DISARMED with its configuration; ARM from DISARMED or FIRED arms it
and evaluates it at once, and does nothing in ARMED or PRIMED; DISARM leaves it DISARMED with its window stopped; a
number or field out of range is refused; each success then reports to the sequencer. The window's expiry takes a
PRIMED trip back to ARMED (R153, R155, R157). That the expiry has no effect elsewhere is the model's choice (log 4), and so
is the place of a recount that a halt at ARM calls for, before the report to the sequencer (log 25). -/
def Obligations.TripOperationsMoveTheTrip : Prop :=
  (∀ (h : FrameHead) (s : State) (trip operation mode action terms window : Word), Arrives s h .supervisor →
    let n0 := noted s h 21 6
    (3 < trip.toNat →
      Gives (.tripConfigure h trip operation mode action terms window) s (told s h 21 6 .outOfRange [])
      ∧ Gives (.tripArm h trip mode action terms window) s (told s h 21 6 .outOfRange [])
      ∧ Gives (.tripDisarm h trip mode action terms window) s (told s h 21 6 .outOfRange []))
    ∧ (2 < operation.toNat →
      Gives (.tripConfigure h trip operation mode action terms window) s (told s h 21 6 .outOfRange []))
    ∧ ∀ n : Fin 4, trip.toNat = n.val →
        let put (t : Trip) : State := { n0 with trips := { s.trips with trips := s.trips.trips.set n t } }
        let sequence := mode.toNat = 2
        let badTerms := 7 < (terms.extractLsb' 8 8).toNat ∨ 7 < (terms.extractLsb' 0 8).toNat
        let badWindow := window.toNat < 10 ∨ 10000 < window.toNat
        (2 < mode.toNat ∨ 2 < action.toNat ∨ (sequence ∧ (badTerms ∨ badWindow)) →
          Gives (.tripConfigure h trip 0 mode action terms window) s (told s h 21 6 .outOfRange []))
        ∧ (∀ a, tripActionOf action.toNat = some a → mode.toNat ≤ 1 → ∃ t,
            Gives (.tripConfigure h trip 0 mode action terms window) s (answered (tripTold (put t)) h 21 .done [])
            ∧ t.mode = (if mode.toNat = 0 then .all else .any) ∧ t.mask = terms.extractLsb' 0 8 ∧ t.action = a
            ∧ t.state = .disarmed ∧ t.timer = .stopped)
        ∧ (∀ a, tripActionOf action.toNat = some a → sequence → ¬badTerms → ¬badWindow → ∃ t,
            Gives (.tripConfigure h trip 0 mode action terms window) s (answered (tripTold (put t)) h 21 .done [])
            ∧ t.mode = .sequence ∧ t.first.val = (terms.extractLsb' 8 8).toNat
            ∧ t.second.val = (terms.extractLsb' 0 8).toNat ∧ t.window = window.toNat ∧ t.action = a
            ∧ t.state = .disarmed ∧ t.timer = .stopped)
        ∧ Gives (.tripDisarm h trip mode action terms window) s
            (answered (tripTold (put { s.trip n with state := .disarmed, timer := .stopped })) h 21 .done [])
        ∧ ((s.trip n).state = .armed ∨ (s.trip n).state = .primed →
            Gives (.tripArm h trip mode action terms window) s (answered (tripTold n0) h 21 .done []))
        ∧ ((s.trip n).state = .disarmed ∨ (s.trip n).state = .fired →
            let w := s.trip n
            let truth (j : Fin 8) := s.trips.terms[j].truth = true
            let armed := put { w with state := .armed, timer := .stopped }
            let primed := put { w with state := .primed, timer := .running w.window }
            let give u := Gives (.tripArm h trip mode action terms window) s
              (answered (tripTold (n0.recountOverflow u)) h 21 .done [])
            let combined := (w.mode = .any ∧ ∃ j : Fin 8, w.mask.getLsbD j.val = true ∧ truth j)
              ∨ (w.mode = .all ∧ w.mask ≠ 0 ∧ ∀ j : Fin 8, w.mask.getLsbD j.val = true → truth j)
            (w.mode ≠ .sequence → combined → give (armed.fireTrip false n))
            ∧ (w.mode ≠ .sequence → ¬combined → give armed)
            ∧ (w.mode = .sequence → ¬truth w.first → give armed)
            ∧ (w.mode = .sequence → truth w.first → ¬truth w.second → give primed)
            ∧ (w.mode = .sequence → truth w.first → truth w.second → give (primed.fireTrip false n))))
  ∧ ∀ (s : State) (n : Fin 4),
      ((s.trip n).state = .primed → Gives (.tripWindowExpiry n) s
        { begun s with
          trips := { s.trips with
            trips := s.trips.trips.set n { s.trip n with state := .armed, timer := .stopped } } })
      ∧ ((s.trip n).state ≠ .primed → Gives (.tripWindowExpiry n) s (begun s))

/-! ### Attention and status (chapter 9), parameters (chapter 11) -/

/-- A cause reaching a node makes one that is not pending pending with its detail, and sets the more flag of one that is;
priority and enable stand, no other node changes, and the line is formed again (R162, R164). -/
def Sys2Proof.Claims.PendLaw : Prop :=
  ∀ (s : State) (n : NodeNumber) (d : Detail),
    let v := s.attn.nodes[n]
    let w : Node := { v with pending := some (v.pending.getD d), more := v.more || v.pending.isSome }
    s.pend n d =
      { s with attn := { s.attn with nodes := s.attn.nodes.set n w, line := lineOf (s.attn.nodes.set n w) } }

/-- A node's clear: not pending and its more flag clear, but that the TIP node is pended again with the current margin while
the tip condition holds (R163, R165, R166). -/
def Sys2Proof.Claims.afterClear (s : State) (n : NodeNumber) (v : Node) : Node :=
  { v with pending := if n = 0 ∧ s.attn.tipHolds = true then some (.tip s.bal.current) else none, more := false }

/-- ATTENTION of SUPERVISOR writes a node's priority and enable and, by its flags, pends it as CLIENT, clears it, or leaves
it; VECTOR of PLANNER or SUPERVISOR answers the pending enabled node of the highest priority, the lowest number among
equals, and clears it, or answers node 15 (R162, R163, R165, R166). -/
def Obligations.AttentionSetsAndVectorReads : Prop :=
  PendLaw
  ∧ (∀ (h : FrameHead) (s : State) (node priority flags : Word), Arrives s h .supervisor →
      ((7 < node.toNat ∨ 15 < priority.toNat) →
        Gives (.attention h node priority flags) s (told s h 24 3 .outOfRange []))
      ∧ ∀ (n : NodeNumber) (p : BitVec 4), node.toNat = n.val → priority.toNat = p.toNat →
          let v := { s.attn.nodes[n] with priority := p, enabled := flags.getLsbD 0 }
          let set := flags.getLsbD 1 = true ∧ flags.getLsbD 2 = false
          let clear := flags.getLsbD 1 = false ∧ flags.getLsbD 2 = true
          let gives (w : Node) := Gives (.attention h node priority flags) s
            (answered
              { noted s h 24 3 with
                attn := { s.attn with nodes := s.attn.nodes.set n w, line := lineOf (s.attn.nodes.set n w) } }
              h 24 .done (attentionWords n w))
          (set → gives { v with pending := some (v.pending.getD .client), more := v.more || v.pending.isSome })
          ∧ (clear → gives (afterClear s n v))
          ∧ (¬set → ¬clear → gives v))
  ∧ ∀ (h : FrameHead) (c : Client) (s : State), Arrives s h c → c ≠ .perception →
      let may (n : NodeNumber) := s.attn.nodes[n].pending ≠ none ∧ s.attn.nodes[n].enabled = true
        ∧ s.attn.nodes[n].priority ≠ 0
      ((∀ n, ¬may n) → Gives (.vector h) s (told s h 25 0 .done [15, 0, 0, 0]))
      ∧ ∀ n, may n →
          (∀ m, may m → s.attn.nodes[m].priority < s.attn.nodes[n].priority
            ∨ (s.attn.nodes[m].priority = s.attn.nodes[n].priority ∧ n ≤ m)) →
          let w := afterClear s n s.attn.nodes[n]
          Gives (.vector h) s
            (answered
              { noted s h 25 0 with
                attn := { s.attn with nodes := s.attn.nodes.set n w, line := lineOf (s.attn.nodes.set n w) } }
              h 25 .done (vectorWords n s.attn.nodes[n]))

/-- CLEARCOND: from PERCEPTION and PLANNER refused with NOT_PERMITTED, not stopped by a rebase walk, malformed as a
broadcast; from SUPERVISOR it answers the condition word as it stands and clears CHECK, FRAME, SAT and DEGEN, leaving the
link, joint fault and shut fields (R170). -/
def Obligations.ClearcondClearsTheStickyFlags : Prop :=
  ∀ (h : FrameHead) (c : Client) (s : State),
    (Arrives s h c → c ≠ .supervisor → Gives (.clearcond h) s (told s h 27 0 .notPermitted []))
    ∧ (Arrives s h .supervisor →
        let cleared : State :=
          { noted s h 27 0 with
            attn := { s.attn with checkFlag := false, frameFlag := false }
            bal := { s.bal with sat := false, degen := false } }
        Gives (.clearcond h) s (answered cleared h 27 .done [s.conditionWord])
        ∧ cleared.conditionWord.extractLsb' 12 4 = 0
        ∧ cleared.conditionWord.extractLsb' 0 12 = s.conditionWord.extractLsb' 0 12
        ∧ (marginWords cleared.bal)[7]? = some ((freshnessNumber s.bal.freshness).setWidth 16))
    ∧ (h.station = 15 → s.sendingOn h.lane = false → (∀ r, s.lanes.inFlight = some r → r.thenReset = false) →
        Gives (.clearcond h) s { begun s with lanes := { s.lanes with inFlight := none, me := true } })

/-- The least and greatest value of each parameter (11.6). -/
def Sys2Proof.Claims.paramRanges : List (Int × Int) :=
  [(0, 500), (-200, 200), (10, 1000), (5, 995), (10, 200), (100, 2000), (300, 5000), (20, 1000), (4, 64), (1, 32), (2, 50),
    (0, 3), (1, 15), (0, 15), (0, 400), (1, 7), (0, 3), (0, 4)]

/-- SETPARAM and FRICTION of SUPERVISOR: a value outside its range, and a load threshold that would meet or cross the
other, are refused; a value accepted is in force at once, lift readiness follows while walking, every SEEKING leg asks
for a take, and a change of the min confidence recounts the candidates (R22, R105, R120, R150, R186, R187). The order
of what follows, and that of the legs, is the model's choice (logs 6 and 24). -/
def Obligations.ParametersAndFrictionAreSet : Prop :=
  ∀ (h : FrameHead) (s : State) (u v w : Word), Arrives s h .supervisor →
    let walking (t : State) := if t.seq.gait = .walking ∨ t.seq.gait = .holding then t.evaluate else t
    let seeking (t : State) := (((t.seekAndReport .lf).seekAndReport .rf).seekAndReport .lh).seekAndReport .rh
    (17 < u.toNat → Gives (.setparam h u v) s (told s h 32 2 .outOfRange []))
    ∧ (∀ n : Fin 18, u.toNat = n.val →
        let range := paramRanges.getD n.val (0, 0)
        let bad := v.toInt < range.1 ∨ range.2 < v.toInt ∨ (n = 2 ∧ v.toInt ≤ s.param 3) ∨ (n = 3 ∧ s.param 2 ≤ v.toInt)
        let written := seeking (walking { noted s h 32 2 with params := s.params.set n v })
        (bad → Gives (.setparam h u v) s (told s h 32 2 .outOfRange []))
        ∧ (¬bad → Gives (.setparam h u v) s
            (answered (if n = 13 then written.recount else written) h 32 .done [u, v])))
    ∧ ((7 < u.toNat ∨ 511 < v.toNat ∨ 64 < w.toNat) →
        Gives (.friction h u v w) s (told s h 34 3 .outOfRange []))
    ∧ (∀ n : Fin 8, u.toNat = n.val → v.toNat ≤ 511 → w.toNat ≤ 64 →
        let e : FrictionEntry := ⟨v.setWidth 9, w.setWidth 7⟩
        Gives (.friction h u v w) s
          (answered (seeking (walking
            { noted s h 34 3 with store := { s.store with friction := s.store.friction.set n e } })) h 34 .done
            [u, v, w]))

/-! ### What no other command changes -/

/-- The command is none of the rows that carry a raw frame, no other GAIT mode under the name of REPORT, no reset, and finds
no response that a reset waits on. -/
def Sys2Proof.Claims.Ordinary (i : Instr) (s : State) : Prop :=
  (∀ r, s.lanes.inFlight = some r → r.thenReset = false)
    ∧ match i with
      | .commandFrameCheckFailure .. | .frameForOtherStation .. | .malformedFrame .. | .powerOnReset _ | .reset _ => False
      | .gaitReport _ m => 7 ≤ m.toNat
      | _ => True

/-- The commands and events that may change a record that no leg holds, or fill a FREE slot. -/
def Sys2Proof.Claims.touchesUnheld : Instr → Bool
  | .submit .. | .amend .. | .query .. | .find .. | .retire .. | .reserve .. | .adopt .. | .sweepVisit
  | .rebaseWalkVisit | .storedContentDisturbance .. => true
  | _ => false

/-- Resets, the raw frame rows and REPORT with another mode's word apart, each piece of configuration is changed by
its own command alone: parameters by SETPARAM, the friction table by FRICTION, node priorities and enables by
ATTENTION, term configurations by TERM, trip configurations by TRIP CONFIGURE, the transmitters by LANE, the pattern
by GAIT FORWARD and BACKWARD, the pose by POSE, REBASE and the pose timer; the station by none. A CANDIDATE or SUSPECT
record and a FREE slot are changed by the commands of the store, RESERVE and ADOPT, the two passes and a disturbance
alone (R1, R2, R116, R152, R157, R165, R173, R182, R186, R187). -/
def Obligations.ConfigurationHasItsWriters : Prop :=
  ∀ (i : Instr) (s t : State), Ordinary i s → Gives i s t →
    ((∀ h p v, i ≠ .setparam h p v) → t.params = s.params)
    ∧ ((∀ h k c d, i ≠ .friction h k c d) → t.store.friction = s.store.friction)
    ∧ ((∀ h n p f, i ≠ .attention h n p f) → ∀ n : NodeNumber,
        (t.node n).priority = (s.node n).priority ∧ (t.node n).enabled = (s.node n).enabled)
    ∧ ((∀ h n e src l r v, i ≠ .term h n e src l r v) → ∀ n : Fin 8,
        let w := s.trips.terms[n]
        t.trips.terms[n] = { w with truth := t.trips.terms[n].truth })
    ∧ ((∀ h n o m a w d, i ≠ .tripConfigure h n o m a w d) → ∀ n : Fin 4,
        t.trip n = { s.trip n with state := (t.trip n).state, timer := (t.trip n).timer })
    ∧ ((∀ h, i ≠ .gaitForward h) → (∀ h, i ≠ .gaitBackward h) → t.seq.pattern = s.seq.pattern)
    ∧ ((∀ h l o, i ≠ .laneShut h l o) → (∀ h l, i ≠ .laneOpen h l) →
        t.lanes.shutA = s.lanes.shutA ∧ t.lanes.shutB = s.lanes.shutB)
    ∧ t.lanes.station = s.lanes.station
    ∧ ((∀ h x y p r, i ≠ .pose h x y p r) → (∀ h x y z, i ≠ .rebase h x y z) → i ≠ .poseTimerExpiry →
        t.bal.pose = s.bal.pose ∧ t.bal.freshness = s.bal.freshness)
    ∧ (touchesUnheld i = false → ∀ j : RecordIndex,
        (s.slot j = none → t.slot j = none)
        ∧ ∀ r, s.slot j = some r → r.state = .candidate ∨ r.state = .suspect →
            t.slot j = some r)

/-! ### Reset and the laws of the machine -/

/-- The command or event that leaves t takes a reset: a power-on reset, a RESET at the end of its response, a RESET on a shut
lane, and the cut of a RESET's response by a frame on the other lane, a command's or a raw one (R179, R180, R183). -/
def Sys2Proof.Claims.TakesReset (s t : State) : Prop :=
  (∃ straps, Gives (.powerOnReset straps) s t)
  ∨ (∃ w, s.lanes.inFlight = some w ∧ w.thenReset = true ∧ Gives .responseEnd s t)
  ∨ (∃ h, Arrives s h .supervisor ∧ s.lanes.isShut h.lane = true ∧ Gives (.reset h) s t)
  ∨ (∃ i h code data w, frameOf i = some (h, code, data) ∧ s.lanes.inFlight = some w ∧ w.thenReset = true
      ∧ w.lane ≠ h.lane ∧ (h.station = 15 ∨ (h.station = s.lanes.station ∧ s.lanes.station ≠ 0)) ∧ Gives i s t)
  ∨ ∃ i lane header data w, RawRow i lane header data ∧ s.lanes.inFlight = some w ∧ w.thenReset = true ∧ w.lane ≠ lane
      ∧ (header.extractLsb' 12 4 = 15#4 ∨ (header.extractLsb' 12 4 = s.lanes.station ∧ s.lanes.station ≠ 0)) ∧ Gives i s t

/-- A power-on reset, and a RESET at the end of its response, on a shut lane and at a cut, leave the trip unit with every
term disabled on CURRENT_MARGIN, leg 0, BELOW, threshold 0 and false, every trip DISARMED in mode ANY with an empty mask,
terms 0, window 10 ms, action ATTENTION and no window timer, and the copies as listed, which agree with what the owning
blocks hold; no node is pending and the hold reason set is empty (R160). -/
def Obligations.ResetOfTheTripUnit : Prop :=
  ∀ s t : State, TakesReset s t →
      (∀ n : Fin 8, t.trips.terms[n] = ⟨false, .currentMargin, .lf, .below, 0, false⟩)
      ∧ (∀ n : Fin 4, t.trip n = ⟨.any, 0, 0, 0, 10, .attention, .disarmed, .stopped⟩)
      ∧ (∀ src l, t.trips.copies.read src l = if src = .currentMargin ∨ src = .liftMargin then -32768 else 0)
      ∧ (∀ n, (t.node n).pending = none) ∧ t.seq.reasons = ⟨false, false, false, false, false, false, false⟩
      ∧ t.bal.current.value.toInt = -32768 ∧ t.bal.lift.value.toInt = -32768 ∧ t.bal.pose = ⟨0, 0, 0, 0⟩
      ∧ t.candidateCount = 0 ∧ ∀ l, (t.leg l).stance = none ∧ (t.port l).report = ⟨0, 0, false, false, 0⟩

/-- What a reset, by whichever of its causes, leaves in every other block: the store empty with generations 0, no walk and no sweep, queues empty, links
DOWN with order number 15, legs UNSEEN with no report waiting, the gait OFF in pattern FORWARD on LH with stride 0, no pose,
no margin, no support legs and no tip condition, nodes of priority 0 and disabled, ATTN released, transmitters open,
parameters and the friction table at their defaults (R23, R46, R63, R87, R113, R132, R148, R171, R184, R186, R187). -/
def Obligations.ResetOfTheOtherBlocks : Prop :=
  (∀ (s : State) (straps : BitVec 4), ∃ t, Gives (.powerOnReset straps) s t)
  ∧ ∀ s t : State, TakesReset s t →
    (∀ i, t.slot i = none ∧ t.gen i = 0) ∧ t.store.walk = none ∧ t.store.sweep = none
    ∧ (∀ l, t.queue l = [])
    ∧ (∀ l, let p := t.port l
        p.linkUp = false ∧ p.loss = .none ∧ p.windowCount = 0 ∧ p.goodRun = 0 ∧ p.lastNumber = 15 ∧ p.lastKind = none
          ∧ p.pending = none ∧ p.retries = 0 ∧ p.echoTimer = .stopped ∧ p.arming = .unarmed ∧ p.slipHeld = false
          ∧ p.rearmTimer = .stopped ∧ p.jointFault = false)
    ∧ (∀ l, t.leg l = ⟨.unseen, none, none, 0, false, false, .stopped, .stopped, .stopped⟩ ∧ t.newFronts.get l = false)
    ∧ t.seq.gait = .off ∧ t.seq.pattern = .forward ∧ t.seq.pointer = .lh ∧ t.seq.stride = 0 ∧ t.seq.haltReason = none
    ∧ t.seq.liftPending = none ∧ t.ordersSent = []
    ∧ t.bal.freshness = .none ∧ t.bal.poseTimer = .stopped ∧ t.bal.current = ⟨0x8000, .degen⟩
    ∧ t.bal.currentLegs = ⟨false, false, false, false⟩ ∧ t.attn.tipHolds = false
    ∧ t.bal.lift = ⟨0x8000, .degen⟩ ∧ t.bal.liftLeg = none ∧ t.bal.sat = false ∧ t.bal.degen = false
    ∧ (∀ n, t.node n = ⟨0, false, none, false⟩) ∧ t.attn.line = false ∧ t.attn.checkFlag = false
    ∧ t.attn.frameFlag = false
    ∧ t.lanes.shutA = false ∧ t.lanes.shutB = false ∧ t.lanes.me = false ∧ t.lanes.broadcast = false
    ∧ t.lanes.lastHeader = 0 ∧ t.lanes.inFlight = none
    ∧ t.params.toList.map BitVec.toInt = [40, 0, 60, 30, 60, 400, 1500, 100, 20, 4, 10, 2, 6, 4, 80, 3, 1, 2]
    ∧ t.store.friction.toList.map (fun e => (e.coefficient.toNat, e.derate.toNat)) =
        [(154, 16), (141, 16), (90, 16), (166, 16), (115, 16), (64, 16), (77, 16), (51, 16)]

/-- At reset, whatever the straps, the laws of the ATTN line, of the more flags, of the halt reason, of walking, of DOWN
links and of the holders of records hold (R47, R68, R76, R89, R114, R115, R161, R164). -/
def Obligations.LawsHoldAtReset : Prop :=
  ∀ straps : BitVec 4,
    let s := State.resetWith straps
    Safety.lineLaw s = true ∧ Safety.moreLaw s = true ∧ Safety.haltLaw s = true ∧ Safety.walkLaw s = true
      ∧ Safety.downLaw s = true ∧ Safety.HolderLaw s

/-- The ATTN line is asserted exactly when some node is pending, enabled and of priority at least 1, and every step keeps
that, so the line moves in the event that moves its node; a pend on a node that is disabled or of priority 0 leaves it; an
ATTENTION that enables a pending node at priority 1 or more asserts it; the status word's ATTN bit is the line (R164). -/
def Obligations.AttnLineFollowsTheNodes : Prop :=
  (∀ s : State, Safety.lineLaw s = true ↔
    (s.attn.line = true ↔ ∃ n : NodeNumber, (s.node n).pending ≠ none ∧ (s.node n).enabled = true
      ∧ 1 ≤ (s.node n).priority.toNat))
  ∧ (∀ s t : State, Safety.lineLaw s = true → step s = .next t → Safety.lineLaw t = true)
  ∧ (∀ (s : State) (n : NodeNumber) (d : Detail), Safety.lineLaw s = true →
      ((s.node n).enabled = false ∨ (s.node n).priority = 0) → (s.pend n d).attn.line = s.attn.line)
  ∧ (∀ (h : FrameHead) (s t : State) (node priority flags : Word) (n : NodeNumber), Arrives s h .supervisor →
      node.toNat = n.val → 1 ≤ priority.toNat → priority.toNat ≤ 15 → flags = 1 → (s.node n).pending ≠ none →
      Gives (.attention h node priority flags) s t → t.attn.line = true)
  ∧ ∀ s : State, s.statusWord.getLsbD 10 = s.attn.line

/-- The more flag of a node that is not pending is clear, and every step keeps that (R161, R162). -/
def Obligations.MoreFlagNeedsAPendingNode : Prop :=
  ∀ s t : State, Safety.moreLaw s = true → step s = .next t → Safety.moreLaw t = true

/-- The halt reason names a cause exactly in HALTED, and while walking is selected the gait is WALKING exactly with an empty
hold reason set; every step keeps both (R114, R115, R127). -/
def Obligations.GaitLawsAreKept : Prop :=
  ∀ s t : State, Safety.haltLaw s = true → Safety.walkLaw s = true → step s = .next t →
    Safety.haltLaw t = true ∧ Safety.walkLaw t = true

/-- A port whose link is DOWN has no pending order, no last order kind, a stopped echo timer and no slip condition, and every
step keeps that (R68, R76). -/
def Obligations.DownLinksHoldNothing : Prop :=
  ∀ s t : State, Safety.downLaw s = true → step s = .next t → Safety.downLaw t = true

/-- Every RESERVED record stands once in its owner's queue of at most three, every TARGET record is its owner's target and
every LOADED record its owner's stance record, each under its current handle, and no queue, target or stance record names
anything else; a leg has a stance record exactly in STANCE and UNLOADING and a target exactly in UNLOADING, SWING, DESCENT
and TOUCHDOWN. Every step keeps that (R5, R47, R89). -/
def Obligations.EveryRecordHasItsHolder : Prop :=
  ∀ s t : State, Safety.HolderLaw s → step s = .next t → Safety.HolderLaw t

/-! ### Legs that seek, and the records that a margin verifies -/

/-- The take of a leg: outside SEEKING, in OFF and during a rebase walk none; an empty queue and an inadmissible front change
nothing; a front that fails its check becomes FREE and leaves the queue, the take goes no further, and the report of a new
front waits; a usable front becomes the target and leaves the queue, the leg is in SWING with the bounce count 0 and the
swing timer started, and PLACE is sent from the held CoM (R42, R57, R93, R105, R107). -/
def Sys2Proof.Claims.SeekingLegTakesItsFront : Prop :=
  ∀ (s : State) (l : Leg),
    let asks := (s.leg l).phase = .seeking ∧ s.seq.gait ≠ .off ∧ s.rebasing = false
    (¬asks → s.seek l = s)
    ∧ (asks → s.queue l = [] → s.seek l = s)
    ∧ (asks → ∀ q rest r, s.queue l = q :: rest → s.slot q.index = some r → r.state = .reserved l →
        let bad := slopePasses r.content = false ∨ (r.content.confidence.toNat : Int) < s.param 13
        let sound := checkCode (coveredWords r.content (s.gen q.index)) = r.content.check
        let shorter := (s.queue l).filter fun e => e.index ≠ q.index
        let com : Word × Word := if s.bal.freshness = .none then (0, 0) else (s.bal.pose.x, s.bal.pose.y)
        (bad → s.seek l = s)
        ∧ (¬bad → ¬sound →
            let failed := freedByCheck (s.setQueue l shorter) q.index
            s.seek l = if shorter = [] then failed else { failed with newFronts := s.newFronts.set l true })
        ∧ (¬bad → sound →
            s.seek l = (((s.setQueue l shorter).setSlot q.index
              (some { r with state := .target l, tag := s.seq.stride })).setLeg l
                { s.leg l with
                  phase := .swing, target := some q, bounce := 0, swingTimer := .running (s.paramNat 6) }).sendOrder l
              .place (heldDifference r.content.x com.1) (heldDifference r.content.y com.2) r.content.z))

/-- A take that changes the queue is reported to the sequencer. A change of a queue is reported to the sequencer, which
evaluates lift readiness while walking where the queue is the next leg's, and then to the leg: in SEEKING a new front, or an
amended one, asks for a take, and in OFF a new front asks for HOLD (R48, R57, R105). That the sequencer comes first is the
model's choice (log 6). -/
def Sys2Proof.Claims.QueueChangesAreReported : Prop :=
  ∀ (s : State) (l : Leg),
    let walksOn (u : State) := (u.seq.gait = .walking ∨ u.seq.gait = .holding) ∧ u.seq.pointer = l
    let sought := s.seek l
    (walksOn s → s.reportToSequencer l = s.evaluate)
    ∧ (¬walksOn s → s.reportToSequencer l = s)
    ∧ (sought.queue l = s.queue l → s.seekAndReport l = sought)
    ∧ (sought.queue l ≠ s.queue l → s.seekAndReport l = sought.reportToSequencer l)
    ∧ ∀ (before : List Handle) (amended : Bool),
        let fresh := s.queue l ≠ [] ∧ (s.queue l).head? ≠ before.head?
        let t := s.reportToSequencer l
        let seeking := (t.leg l).phase = .seeking
        (¬seeking → s.reportQueue l before amended = t)
        ∧ (seeking → t.seq.gait = .off → fresh → s.reportQueue l before amended = t.sendOrder l .hold 0 0 0)
        ∧ (seeking → t.seq.gait = .off → ¬fresh → s.reportQueue l before amended = t)
        ∧ (seeking → t.seq.gait ≠ .off → (fresh ∨ amended = true) → s.reportQueue l before amended = t.seekAndReport l)
        ∧ (seeking → t.seq.gait ≠ .off → ¬fresh → amended = false → s.reportQueue l before amended = t)

/-- A report of a new front that a take answered CHECK has left comes to its leg in an event of its own, and in SEEKING the
leg asks for a take; in OFF it asks for HOLD (R57, R105). That this event is a step that finds no command waiting, and that
the lowest-numbered leg comes first, is the model's choice (log 9). -/
def Sys2Proof.Claims.WaitingReportsComeInTheirOwnEvent : Prop :=
  ∀ (s : State) (l : Leg), s.pending = [] → s.newFronts.get l = true →
    (∀ m, m.number < l.number → s.newFronts.get m = false) →
    let heard : State := { begun s with newFronts := s.newFronts.set l false }
    let seeking := (s.leg l).phase = .seeking
    (s.queue l = [] ∨ ¬seeking → step s = .next heard)
    ∧ (s.queue l ≠ [] → seeking → s.seq.gait = .off → step s = .next (heard.sendOrder l .hold 0 0 0))
    ∧ (s.queue l ≠ [] → seeking → s.seq.gait ≠ .off → step s = .next (heard.seekAndReport l))

/-- The placement of a SEEKING leg: the take, the reports that ask for one, and the report after CHECK (R48, R57, R105). -/
def Obligations.SeekingLegsTakeTheirFronts : Prop :=
  SeekingLegTakesItsFront ∧ QueueChangesAreReported ∧ WaitingReportsComeInTheirOwnEvent

/-- A leg's member of the support set fails its check (R138). -/
def Sys2Proof.Claims.MemberFails (skip : Option Leg) (s : State) (l : Leg) : Prop :=
  skip ≠ some l ∧ ∃ i r, s.supportOf l = some (i, r) ∧ checkCode (coveredWords r.content (s.gen i)) ≠ r.content.check

/-- The verification of one leg's member of the set that a computation uses: one that fails has its check-failed flag set,
CHECK is set, the RECORD node takes it, and the gait halts with cause CHECK (R20, R138). -/
def Sys2Proof.Claims.memberVerified (skip : Option Leg) (s : State) (l : Leg) : State :=
  if skip = some l then s
  else
    match s.supportOf l with
    | none => s
    | some (i, r) =>
      if checkCode (coveredWords r.content (s.gen i)) = r.content.check then s
      else
        (((({ s with attn := { s.attn with checkFlag := true } } : State).setSlot i
          (some { r with state := .loaded l true })).pend nodeRecord (.record ⟨i, s.gen i⟩ .check)).haltCause .check)

/-- The members of the set verified one after another in the order of their legs' numbers (R138). -/
def Sys2Proof.Claims.setVerified (skip : Option Leg) (s : State) : State :=
  memberVerified skip (memberVerified skip (memberVerified skip (memberVerified skip s .lf) .rf) .lh) .rh

/-- The support set: a leg's member is the record it stands on in STANCE or UNLOADING, LOADED with the check-failed flag
clear; the margin of the set, one leg left out, is that of the held CoM over the members' x and y in leg order (R137, R139,
R144). -/
def Sys2Proof.Claims.SupportSetMakesTheMargin : Prop :=
  ∀ (s : State) (skip : Option Leg),
    (∀ l i r, s.supportOf l = some (i, r) ↔
      ((s.leg l).phase = .stance ∨ (s.leg l).phase = .unloading)
      ∧ (∃ h, (s.leg l).stance = some h ∧ h.index = i) ∧ s.slot i = some r ∧ r.state = .loaded l false)
    ∧ s.marginWithout skip =
        marginOf (if s.bal.freshness = .none then none else some ⟨s.bal.pose.x.toInt, s.bal.pose.y.toInt⟩)
          (([.lf, .rf, .lh, .rh] : List Leg).filterMap fun l =>
            if skip = some l then none
            else (s.supportOf l).map fun ir => ⟨ir.2.content.x.toInt, ir.2.content.y.toInt⟩)

/-- The current margin with its members verified first: those that fail are flagged and left out, with the halt before the
tip test, so that a failure leaves HALTED with cause CHECK wherever the gait was not HALTED already (R138, R142, R145). -/
def Sys2Proof.Claims.CurrentMarginVerifiesItsSet : Prop :=
  ∀ s : State, s.rebasing = false →
    let v := setVerified none s
    let m := v.marginWithout none
    let recorded : State :=
      { v with
        bal := { v.bal with
          current := m
          currentLegs := ⟨(v.supportOf .lf).isSome, (v.supportOf .rf).isSome, (v.supportOf .lh).isSome,
            (v.supportOf .rh).isSome⟩
          sat := v.bal.sat || m.cls == .saturated
          degen := v.bal.degen || m.cls == .degen } }
    ((∃ l, MemberFails none s l) →
      s.computeCurrent = recorded.deliver false .currentMargin .lf m.value.toInt
      ∧ s.computeCurrent.seq.gait = .halted
      ∧ (s.seq.gait ≠ .halted → s.computeCurrent.seq.haltReason = some .check)
      ∧ ∀ l i r, MemberFails none s l → s.supportOf l = some (i, r) →
          s.computeCurrent.slot i = some { r with state := .loaded l true })
    ∧ ((∀ l, ¬MemberFails none s l) → v = s)

/-- The lift margin of a leg: the other members verified as for the current margin, the margin over them recorded as the last
lift margin with its leg and the sticky flags, the LIFT_MARGIN terms served within the evaluation. Where a member fails, the
lift margin is −32768 and DEGEN, the gait is HALTED, and the current margin is then computed (R138, R143, R144). -/
def Sys2Proof.Claims.LiftMarginVerifiesItsSet : Prop :=
  ∀ (s : State) (l : Leg),
    let v := setVerified (some l) s
    let m := v.marginWithout (some l)
    let recorded : State :=
      { v with
        bal := { v.bal with
          lift := m
          liftLeg := some l
          sat := v.bal.sat || m.cls == .saturated
          degen := v.bal.degen || m.cls == .degen } }
    let served := recorded.deliver true .liftMargin .lf m.value.toInt
    ((∀ k, ¬MemberFails (some l) s k) → v = s ∧ s.computeLift l = served)
    ∧ ((∃ k, MemberFails (some l) s k) →
        s.computeLift l = served.computeCurrent ∧ m = ⟨0x8000, .degen⟩
        ∧ (s.computeLift l).bal.lift = ⟨0x8000, .degen⟩ ∧ (s.computeLift l).bal.liftLeg = some l
        ∧ (s.computeLift l).seq.gait = .halted
        ∧ (s.seq.gait ≠ .halted → (s.computeLift l).seq.haltReason = some .check))

/-- The support set, its verification by the current margin and by the lift margin, and the lift margin itself (R137 to R139,
R142 to R144). -/
def Obligations.MarginsVerifyTheirSupport : Prop :=
  SupportSetMakesTheMargin ∧ CurrentMarginVerifiesItsSet ∧ LiftMarginVerifiesItsSet
end

