-- ==== Sys2Proof/Laws/State.lean ====
section
/-! SUPPORT. One lemma for each field and each update of State: what the update leaves as it was, and what it puts in. -/

namespace Sys2Proof

namespace PerLeg

variable {α : Type}

@[simp] theorem get_set_self (p : PerLeg α) (l : Leg) (a : α) : (p.set l a).get l = a := by cases l <;> rfl

theorem get_set (p : PerLeg α) (l m : Leg) (a : α) : (p.set l a).get m = if l = m then a else p.get m := by
  cases l <;> cases m <;> rfl

@[simp] theorem get_set_ne (p : PerLeg α) {l m : Leg} (a : α) (h : l ≠ m) : (p.set l a).get m = p.get m := by
  rw [get_set, if_neg h]

@[simp] theorem get_const (a : α) (l : Leg) : (const a).get l = a := by cases l <;> rfl

end PerLeg

namespace Machine.State

variable (s : State)

@[simp] theorem setSlot_pending (i : RecordIndex) (r : Option FootRecord) : (s.setSlot i r).pending = s.pending := rfl
@[simp] theorem setSlot_lanes (i : RecordIndex) (r : Option FootRecord) : (s.setSlot i r).lanes = s.lanes := rfl
@[simp] theorem setSlot_queues (i : RecordIndex) (r : Option FootRecord) : (s.setSlot i r).queues = s.queues := rfl
@[simp] theorem setSlot_ports (i : RecordIndex) (r : Option FootRecord) : (s.setSlot i r).ports = s.ports := rfl
@[simp] theorem setSlot_legs (i : RecordIndex) (r : Option FootRecord) : (s.setSlot i r).legs = s.legs := rfl
@[simp] theorem setSlot_seq (i : RecordIndex) (r : Option FootRecord) : (s.setSlot i r).seq = s.seq := rfl
@[simp] theorem setSlot_bal (i : RecordIndex) (r : Option FootRecord) : (s.setSlot i r).bal = s.bal := rfl
@[simp] theorem setSlot_trips (i : RecordIndex) (r : Option FootRecord) : (s.setSlot i r).trips = s.trips := rfl
@[simp] theorem setSlot_attn (i : RecordIndex) (r : Option FootRecord) : (s.setSlot i r).attn = s.attn := rfl
@[simp] theorem setSlot_params (i : RecordIndex) (r : Option FootRecord) : (s.setSlot i r).params = s.params := rfl
@[simp] theorem setSlot_ordersSent (i : RecordIndex) (r : Option FootRecord) : (s.setSlot i r).ordersSent = s.ordersSent := rfl
@[simp] theorem setSlot_newFronts (i : RecordIndex) (r : Option FootRecord) :
    (s.setSlot i r).newFronts = s.newFronts := rfl

@[simp] theorem setGen_pending (i : RecordIndex) (g : BitVec 4) : (s.setGen i g).pending = s.pending := rfl
@[simp] theorem setGen_lanes (i : RecordIndex) (g : BitVec 4) : (s.setGen i g).lanes = s.lanes := rfl
@[simp] theorem setGen_queues (i : RecordIndex) (g : BitVec 4) : (s.setGen i g).queues = s.queues := rfl
@[simp] theorem setGen_ports (i : RecordIndex) (g : BitVec 4) : (s.setGen i g).ports = s.ports := rfl
@[simp] theorem setGen_legs (i : RecordIndex) (g : BitVec 4) : (s.setGen i g).legs = s.legs := rfl
@[simp] theorem setGen_seq (i : RecordIndex) (g : BitVec 4) : (s.setGen i g).seq = s.seq := rfl
@[simp] theorem setGen_bal (i : RecordIndex) (g : BitVec 4) : (s.setGen i g).bal = s.bal := rfl
@[simp] theorem setGen_trips (i : RecordIndex) (g : BitVec 4) : (s.setGen i g).trips = s.trips := rfl
@[simp] theorem setGen_attn (i : RecordIndex) (g : BitVec 4) : (s.setGen i g).attn = s.attn := rfl
@[simp] theorem setGen_params (i : RecordIndex) (g : BitVec 4) : (s.setGen i g).params = s.params := rfl
@[simp] theorem setGen_ordersSent (i : RecordIndex) (g : BitVec 4) : (s.setGen i g).ordersSent = s.ordersSent := rfl
@[simp] theorem setGen_newFronts (i : RecordIndex) (g : BitVec 4) : (s.setGen i g).newFronts = s.newFronts := rfl

@[simp] theorem setLeg_pending (l : Leg) (v : LegState) : (s.setLeg l v).pending = s.pending := rfl
@[simp] theorem setLeg_lanes (l : Leg) (v : LegState) : (s.setLeg l v).lanes = s.lanes := rfl
@[simp] theorem setLeg_store (l : Leg) (v : LegState) : (s.setLeg l v).store = s.store := rfl
@[simp] theorem setLeg_queues (l : Leg) (v : LegState) : (s.setLeg l v).queues = s.queues := rfl
@[simp] theorem setLeg_ports (l : Leg) (v : LegState) : (s.setLeg l v).ports = s.ports := rfl
@[simp] theorem setLeg_legs (l : Leg) (v : LegState) : (s.setLeg l v).legs = s.legs.set l v := rfl
@[simp] theorem setLeg_seq (l : Leg) (v : LegState) : (s.setLeg l v).seq = s.seq := rfl
@[simp] theorem setLeg_bal (l : Leg) (v : LegState) : (s.setLeg l v).bal = s.bal := rfl
@[simp] theorem setLeg_trips (l : Leg) (v : LegState) : (s.setLeg l v).trips = s.trips := rfl
@[simp] theorem setLeg_attn (l : Leg) (v : LegState) : (s.setLeg l v).attn = s.attn := rfl
@[simp] theorem setLeg_params (l : Leg) (v : LegState) : (s.setLeg l v).params = s.params := rfl
@[simp] theorem setLeg_ordersSent (l : Leg) (v : LegState) : (s.setLeg l v).ordersSent = s.ordersSent := rfl
@[simp] theorem setLeg_newFronts (l : Leg) (v : LegState) : (s.setLeg l v).newFronts = s.newFronts := rfl

@[simp] theorem setPort_pending (l : Leg) (v : Port) : (s.setPort l v).pending = s.pending := rfl
@[simp] theorem setPort_lanes (l : Leg) (v : Port) : (s.setPort l v).lanes = s.lanes := rfl
@[simp] theorem setPort_store (l : Leg) (v : Port) : (s.setPort l v).store = s.store := rfl
@[simp] theorem setPort_queues (l : Leg) (v : Port) : (s.setPort l v).queues = s.queues := rfl
@[simp] theorem setPort_ports (l : Leg) (v : Port) : (s.setPort l v).ports = s.ports.set l v := rfl
@[simp] theorem setPort_legs (l : Leg) (v : Port) : (s.setPort l v).legs = s.legs := rfl
@[simp] theorem setPort_seq (l : Leg) (v : Port) : (s.setPort l v).seq = s.seq := rfl
@[simp] theorem setPort_bal (l : Leg) (v : Port) : (s.setPort l v).bal = s.bal := rfl
@[simp] theorem setPort_trips (l : Leg) (v : Port) : (s.setPort l v).trips = s.trips := rfl
@[simp] theorem setPort_attn (l : Leg) (v : Port) : (s.setPort l v).attn = s.attn := rfl
@[simp] theorem setPort_params (l : Leg) (v : Port) : (s.setPort l v).params = s.params := rfl
@[simp] theorem setPort_ordersSent (l : Leg) (v : Port) : (s.setPort l v).ordersSent = s.ordersSent := rfl
@[simp] theorem setPort_newFronts (l : Leg) (v : Port) : (s.setPort l v).newFronts = s.newFronts := rfl

@[simp] theorem setQueue_pending (l : Leg) (q : List Handle) : (s.setQueue l q).pending = s.pending := rfl
@[simp] theorem setQueue_lanes (l : Leg) (q : List Handle) : (s.setQueue l q).lanes = s.lanes := rfl
@[simp] theorem setQueue_store (l : Leg) (q : List Handle) : (s.setQueue l q).store = s.store := rfl
@[simp] theorem setQueue_queues (l : Leg) (q : List Handle) : (s.setQueue l q).queues = s.queues.set l q := rfl
@[simp] theorem setQueue_ports (l : Leg) (q : List Handle) : (s.setQueue l q).ports = s.ports := rfl
@[simp] theorem setQueue_legs (l : Leg) (q : List Handle) : (s.setQueue l q).legs = s.legs := rfl
@[simp] theorem setQueue_seq (l : Leg) (q : List Handle) : (s.setQueue l q).seq = s.seq := rfl
@[simp] theorem setQueue_bal (l : Leg) (q : List Handle) : (s.setQueue l q).bal = s.bal := rfl
@[simp] theorem setQueue_trips (l : Leg) (q : List Handle) : (s.setQueue l q).trips = s.trips := rfl
@[simp] theorem setQueue_attn (l : Leg) (q : List Handle) : (s.setQueue l q).attn = s.attn := rfl
@[simp] theorem setQueue_params (l : Leg) (q : List Handle) : (s.setQueue l q).params = s.params := rfl
@[simp] theorem setQueue_ordersSent (l : Leg) (q : List Handle) : (s.setQueue l q).ordersSent = s.ordersSent := rfl
@[simp] theorem setQueue_newFronts (l : Leg) (q : List Handle) : (s.setQueue l q).newFronts = s.newFronts := rfl

@[simp] theorem setSeq_pending (q : Sequencer) : (s.setSeq q).pending = s.pending := rfl
@[simp] theorem setSeq_lanes (q : Sequencer) : (s.setSeq q).lanes = s.lanes := rfl
@[simp] theorem setSeq_store (q : Sequencer) : (s.setSeq q).store = s.store := rfl
@[simp] theorem setSeq_queues (q : Sequencer) : (s.setSeq q).queues = s.queues := rfl
@[simp] theorem setSeq_ports (q : Sequencer) : (s.setSeq q).ports = s.ports := rfl
@[simp] theorem setSeq_legs (q : Sequencer) : (s.setSeq q).legs = s.legs := rfl
@[simp] theorem setSeq_seq (q : Sequencer) : (s.setSeq q).seq = q := rfl
@[simp] theorem setSeq_bal (q : Sequencer) : (s.setSeq q).bal = s.bal := rfl
@[simp] theorem setSeq_trips (q : Sequencer) : (s.setSeq q).trips = s.trips := rfl
@[simp] theorem setSeq_attn (q : Sequencer) : (s.setSeq q).attn = s.attn := rfl
@[simp] theorem setSeq_params (q : Sequencer) : (s.setSeq q).params = s.params := rfl
@[simp] theorem setSeq_ordersSent (q : Sequencer) : (s.setSeq q).ordersSent = s.ordersSent := rfl
@[simp] theorem setSeq_newFronts (q : Sequencer) : (s.setSeq q).newFronts = s.newFronts := rfl

@[simp] theorem setBal_pending (b : Balance) : (s.setBal b).pending = s.pending := rfl
@[simp] theorem setBal_lanes (b : Balance) : (s.setBal b).lanes = s.lanes := rfl
@[simp] theorem setBal_store (b : Balance) : (s.setBal b).store = s.store := rfl
@[simp] theorem setBal_queues (b : Balance) : (s.setBal b).queues = s.queues := rfl
@[simp] theorem setBal_ports (b : Balance) : (s.setBal b).ports = s.ports := rfl
@[simp] theorem setBal_legs (b : Balance) : (s.setBal b).legs = s.legs := rfl
@[simp] theorem setBal_seq (b : Balance) : (s.setBal b).seq = s.seq := rfl
@[simp] theorem setBal_bal (b : Balance) : (s.setBal b).bal = b := rfl
@[simp] theorem setBal_trips (b : Balance) : (s.setBal b).trips = s.trips := rfl
@[simp] theorem setBal_attn (b : Balance) : (s.setBal b).attn = s.attn := rfl
@[simp] theorem setBal_params (b : Balance) : (s.setBal b).params = s.params := rfl
@[simp] theorem setBal_ordersSent (b : Balance) : (s.setBal b).ordersSent = s.ordersSent := rfl
@[simp] theorem setBal_newFronts (b : Balance) : (s.setBal b).newFronts = s.newFronts := rfl

@[simp] theorem setTrips_pending (t : TripUnit) : (s.setTrips t).pending = s.pending := rfl
@[simp] theorem setTrips_lanes (t : TripUnit) : (s.setTrips t).lanes = s.lanes := rfl
@[simp] theorem setTrips_store (t : TripUnit) : (s.setTrips t).store = s.store := rfl
@[simp] theorem setTrips_queues (t : TripUnit) : (s.setTrips t).queues = s.queues := rfl
@[simp] theorem setTrips_ports (t : TripUnit) : (s.setTrips t).ports = s.ports := rfl
@[simp] theorem setTrips_legs (t : TripUnit) : (s.setTrips t).legs = s.legs := rfl
@[simp] theorem setTrips_seq (t : TripUnit) : (s.setTrips t).seq = s.seq := rfl
@[simp] theorem setTrips_bal (t : TripUnit) : (s.setTrips t).bal = s.bal := rfl
@[simp] theorem setTrips_trips (t : TripUnit) : (s.setTrips t).trips = t := rfl
@[simp] theorem setTrips_attn (t : TripUnit) : (s.setTrips t).attn = s.attn := rfl
@[simp] theorem setTrips_params (t : TripUnit) : (s.setTrips t).params = s.params := rfl
@[simp] theorem setTrips_ordersSent (t : TripUnit) : (s.setTrips t).ordersSent = s.ordersSent := rfl
@[simp] theorem setTrips_newFronts (t : TripUnit) : (s.setTrips t).newFronts = s.newFronts := rfl

@[simp] theorem setLanes_pending (v : Lanes) : (s.setLanes v).pending = s.pending := rfl
@[simp] theorem setLanes_lanes (v : Lanes) : (s.setLanes v).lanes = v := rfl
@[simp] theorem setLanes_store (v : Lanes) : (s.setLanes v).store = s.store := rfl
@[simp] theorem setLanes_queues (v : Lanes) : (s.setLanes v).queues = s.queues := rfl
@[simp] theorem setLanes_ports (v : Lanes) : (s.setLanes v).ports = s.ports := rfl
@[simp] theorem setLanes_legs (v : Lanes) : (s.setLanes v).legs = s.legs := rfl
@[simp] theorem setLanes_seq (v : Lanes) : (s.setLanes v).seq = s.seq := rfl
@[simp] theorem setLanes_bal (v : Lanes) : (s.setLanes v).bal = s.bal := rfl
@[simp] theorem setLanes_trips (v : Lanes) : (s.setLanes v).trips = s.trips := rfl
@[simp] theorem setLanes_attn (v : Lanes) : (s.setLanes v).attn = s.attn := rfl
@[simp] theorem setLanes_params (v : Lanes) : (s.setLanes v).params = s.params := rfl
@[simp] theorem setLanes_ordersSent (v : Lanes) : (s.setLanes v).ordersSent = s.ordersSent := rfl
@[simp] theorem setLanes_newFronts (v : Lanes) : (s.setLanes v).newFronts = s.newFronts := rfl

@[simp] theorem setStore_pending (t : Store) : (s.setStore t).pending = s.pending := rfl
@[simp] theorem setStore_lanes (t : Store) : (s.setStore t).lanes = s.lanes := rfl
@[simp] theorem setStore_store (t : Store) : (s.setStore t).store = t := rfl
@[simp] theorem setStore_queues (t : Store) : (s.setStore t).queues = s.queues := rfl
@[simp] theorem setStore_ports (t : Store) : (s.setStore t).ports = s.ports := rfl
@[simp] theorem setStore_legs (t : Store) : (s.setStore t).legs = s.legs := rfl
@[simp] theorem setStore_seq (t : Store) : (s.setStore t).seq = s.seq := rfl
@[simp] theorem setStore_bal (t : Store) : (s.setStore t).bal = s.bal := rfl
@[simp] theorem setStore_trips (t : Store) : (s.setStore t).trips = s.trips := rfl
@[simp] theorem setStore_attn (t : Store) : (s.setStore t).attn = s.attn := rfl
@[simp] theorem setStore_params (t : Store) : (s.setStore t).params = s.params := rfl
@[simp] theorem setStore_ordersSent (t : Store) : (s.setStore t).ordersSent = s.ordersSent := rfl
@[simp] theorem setStore_newFronts (t : Store) : (s.setStore t).newFronts = s.newFronts := rfl

@[simp] theorem setNode_pending (n : NodeNumber) (v : Node) : (s.setNode n v).pending = s.pending := rfl
@[simp] theorem setNode_lanes (n : NodeNumber) (v : Node) : (s.setNode n v).lanes = s.lanes := rfl
@[simp] theorem setNode_store (n : NodeNumber) (v : Node) : (s.setNode n v).store = s.store := rfl
@[simp] theorem setNode_queues (n : NodeNumber) (v : Node) : (s.setNode n v).queues = s.queues := rfl
@[simp] theorem setNode_ports (n : NodeNumber) (v : Node) : (s.setNode n v).ports = s.ports := rfl
@[simp] theorem setNode_legs (n : NodeNumber) (v : Node) : (s.setNode n v).legs = s.legs := rfl
@[simp] theorem setNode_seq (n : NodeNumber) (v : Node) : (s.setNode n v).seq = s.seq := rfl
@[simp] theorem setNode_bal (n : NodeNumber) (v : Node) : (s.setNode n v).bal = s.bal := rfl
@[simp] theorem setNode_trips (n : NodeNumber) (v : Node) : (s.setNode n v).trips = s.trips := rfl
@[simp] theorem setNode_params (n : NodeNumber) (v : Node) : (s.setNode n v).params = s.params := rfl
@[simp] theorem setNode_ordersSent (n : NodeNumber) (v : Node) : (s.setNode n v).ordersSent = s.ordersSent := rfl
@[simp] theorem setNode_newFronts (n : NodeNumber) (v : Node) : (s.setNode n v).newFronts = s.newFronts := rfl

@[simp] theorem pend_pending (n : NodeNumber) (d : Detail) : (s.pend n d).pending = s.pending := rfl
@[simp] theorem pend_lanes (n : NodeNumber) (d : Detail) : (s.pend n d).lanes = s.lanes := rfl
@[simp] theorem pend_store (n : NodeNumber) (d : Detail) : (s.pend n d).store = s.store := rfl
@[simp] theorem pend_queues (n : NodeNumber) (d : Detail) : (s.pend n d).queues = s.queues := rfl
@[simp] theorem pend_ports (n : NodeNumber) (d : Detail) : (s.pend n d).ports = s.ports := rfl
@[simp] theorem pend_legs (n : NodeNumber) (d : Detail) : (s.pend n d).legs = s.legs := rfl
@[simp] theorem pend_seq (n : NodeNumber) (d : Detail) : (s.pend n d).seq = s.seq := rfl
@[simp] theorem pend_bal (n : NodeNumber) (d : Detail) : (s.pend n d).bal = s.bal := rfl
@[simp] theorem pend_trips (n : NodeNumber) (d : Detail) : (s.pend n d).trips = s.trips := rfl
@[simp] theorem pend_params (n : NodeNumber) (d : Detail) : (s.pend n d).params = s.params := rfl
@[simp] theorem pend_ordersSent (n : NodeNumber) (d : Detail) : (s.pend n d).ordersSent = s.ordersSent := rfl
@[simp] theorem pend_newFronts (n : NodeNumber) (d : Detail) : (s.pend n d).newFronts = s.newFronts := rfl

@[simp] theorem setCheckFlag_pending : (s.setCheckFlag).pending = s.pending := rfl
@[simp] theorem setCheckFlag_lanes : (s.setCheckFlag).lanes = s.lanes := rfl
@[simp] theorem setCheckFlag_store : (s.setCheckFlag).store = s.store := rfl
@[simp] theorem setCheckFlag_queues : (s.setCheckFlag).queues = s.queues := rfl
@[simp] theorem setCheckFlag_ports : (s.setCheckFlag).ports = s.ports := rfl
@[simp] theorem setCheckFlag_legs : (s.setCheckFlag).legs = s.legs := rfl
@[simp] theorem setCheckFlag_seq : (s.setCheckFlag).seq = s.seq := rfl
@[simp] theorem setCheckFlag_bal : (s.setCheckFlag).bal = s.bal := rfl
@[simp] theorem setCheckFlag_trips : (s.setCheckFlag).trips = s.trips := rfl
@[simp] theorem setCheckFlag_params : (s.setCheckFlag).params = s.params := rfl
@[simp] theorem setCheckFlag_ordersSent : (s.setCheckFlag).ordersSent = s.ordersSent := rfl
@[simp] theorem setCheckFlag_newFronts : (s.setCheckFlag).newFronts = s.newFronts := rfl

@[simp] theorem setFrameFlag_pending : (s.setFrameFlag).pending = s.pending := rfl
@[simp] theorem setFrameFlag_lanes : (s.setFrameFlag).lanes = s.lanes := rfl
@[simp] theorem setFrameFlag_store : (s.setFrameFlag).store = s.store := rfl
@[simp] theorem setFrameFlag_queues : (s.setFrameFlag).queues = s.queues := rfl
@[simp] theorem setFrameFlag_ports : (s.setFrameFlag).ports = s.ports := rfl
@[simp] theorem setFrameFlag_legs : (s.setFrameFlag).legs = s.legs := rfl
@[simp] theorem setFrameFlag_seq : (s.setFrameFlag).seq = s.seq := rfl
@[simp] theorem setFrameFlag_bal : (s.setFrameFlag).bal = s.bal := rfl
@[simp] theorem setFrameFlag_trips : (s.setFrameFlag).trips = s.trips := rfl
@[simp] theorem setFrameFlag_params : (s.setFrameFlag).params = s.params := rfl
@[simp] theorem setFrameFlag_ordersSent : (s.setFrameFlag).ordersSent = s.ordersSent := rfl
@[simp] theorem setFrameFlag_newFronts : (s.setFrameFlag).newFronts = s.newFronts := rfl

@[simp] theorem putReason_pending (x : HoldReason) (b : Bool) : (s.putReason x b).pending = s.pending := rfl
@[simp] theorem putReason_lanes (x : HoldReason) (b : Bool) : (s.putReason x b).lanes = s.lanes := rfl
@[simp] theorem putReason_store (x : HoldReason) (b : Bool) : (s.putReason x b).store = s.store := rfl
@[simp] theorem putReason_queues (x : HoldReason) (b : Bool) : (s.putReason x b).queues = s.queues := rfl
@[simp] theorem putReason_ports (x : HoldReason) (b : Bool) : (s.putReason x b).ports = s.ports := rfl
@[simp] theorem putReason_legs (x : HoldReason) (b : Bool) : (s.putReason x b).legs = s.legs := rfl
@[simp] theorem putReason_bal (x : HoldReason) (b : Bool) : (s.putReason x b).bal = s.bal := rfl
@[simp] theorem putReason_trips (x : HoldReason) (b : Bool) : (s.putReason x b).trips = s.trips := rfl
@[simp] theorem putReason_attn (x : HoldReason) (b : Bool) : (s.putReason x b).attn = s.attn := rfl
@[simp] theorem putReason_params (x : HoldReason) (b : Bool) : (s.putReason x b).params = s.params := rfl
@[simp] theorem putReason_ordersSent (x : HoldReason) (b : Bool) : (s.putReason x b).ordersSent = s.ordersSent := rfl
@[simp] theorem putReason_newFronts (x : HoldReason) (b : Bool) : (s.putReason x b).newFronts = s.newFronts := rfl

@[simp] theorem setTrip_pending (n : Fin 4) (t : Trip) : (s.setTrip n t).pending = s.pending := rfl
@[simp] theorem setTrip_lanes (n : Fin 4) (t : Trip) : (s.setTrip n t).lanes = s.lanes := rfl
@[simp] theorem setTrip_store (n : Fin 4) (t : Trip) : (s.setTrip n t).store = s.store := rfl
@[simp] theorem setTrip_queues (n : Fin 4) (t : Trip) : (s.setTrip n t).queues = s.queues := rfl
@[simp] theorem setTrip_ports (n : Fin 4) (t : Trip) : (s.setTrip n t).ports = s.ports := rfl
@[simp] theorem setTrip_legs (n : Fin 4) (t : Trip) : (s.setTrip n t).legs = s.legs := rfl
@[simp] theorem setTrip_seq (n : Fin 4) (t : Trip) : (s.setTrip n t).seq = s.seq := rfl
@[simp] theorem setTrip_bal (n : Fin 4) (t : Trip) : (s.setTrip n t).bal = s.bal := rfl
@[simp] theorem setTrip_attn (n : Fin 4) (t : Trip) : (s.setTrip n t).attn = s.attn := rfl
@[simp] theorem setTrip_params (n : Fin 4) (t : Trip) : (s.setTrip n t).params = s.params := rfl
@[simp] theorem setTrip_ordersSent (n : Fin 4) (t : Trip) : (s.setTrip n t).ordersSent = s.ordersSent := rfl
@[simp] theorem setTrip_newFronts (n : Fin 4) (t : Trip) : (s.setTrip n t).newFronts = s.newFronts := rfl

@[simp] theorem setNewFront_pending (l : Leg) (b : Bool) : (s.setNewFront l b).pending = s.pending := rfl
@[simp] theorem setNewFront_lanes (l : Leg) (b : Bool) : (s.setNewFront l b).lanes = s.lanes := rfl
@[simp] theorem setNewFront_store (l : Leg) (b : Bool) : (s.setNewFront l b).store = s.store := rfl
@[simp] theorem setNewFront_queues (l : Leg) (b : Bool) : (s.setNewFront l b).queues = s.queues := rfl
@[simp] theorem setNewFront_ports (l : Leg) (b : Bool) : (s.setNewFront l b).ports = s.ports := rfl
@[simp] theorem setNewFront_legs (l : Leg) (b : Bool) : (s.setNewFront l b).legs = s.legs := rfl
@[simp] theorem setNewFront_seq (l : Leg) (b : Bool) : (s.setNewFront l b).seq = s.seq := rfl
@[simp] theorem setNewFront_bal (l : Leg) (b : Bool) : (s.setNewFront l b).bal = s.bal := rfl
@[simp] theorem setNewFront_trips (l : Leg) (b : Bool) : (s.setNewFront l b).trips = s.trips := rfl
@[simp] theorem setNewFront_attn (l : Leg) (b : Bool) : (s.setNewFront l b).attn = s.attn := rfl
@[simp] theorem setNewFront_params (l : Leg) (b : Bool) : (s.setNewFront l b).params = s.params := rfl
@[simp] theorem setNewFront_ordersSent (l : Leg) (b : Bool) : (s.setNewFront l b).ordersSent = s.ordersSent := rfl
@[simp] theorem setNewFront_newFronts (l : Leg) (b : Bool) : (s.setNewFront l b).newFronts = s.newFronts.set l b := rfl

/-! ### The homes read back -/

theorem slot_setSlot (i j : RecordIndex) (r : Option FootRecord) :
    (s.setSlot i r).slot j = if i = j then r else s.slot j := by
  simp [slot, setSlot, Vector.getElem_set, Fin.ext_iff]

@[simp] theorem slot_setSlot_self (i : RecordIndex) (r : Option FootRecord) : (s.setSlot i r).slot i = r := by
  simp [slot_setSlot]

@[simp] theorem slot_setSlot_ne {i j : RecordIndex} (r : Option FootRecord) (h : i ≠ j) :
    (s.setSlot i r).slot j = s.slot j := by simp [slot_setSlot, h]

@[simp] theorem gen_setSlot (i j : RecordIndex) (r : Option FootRecord) : (s.setSlot i r).gen j = s.gen j := rfl

theorem gen_setGen (i j : RecordIndex) (g : BitVec 4) : (s.setGen i g).gen j = if i = j then g else s.gen j := by
  simp [gen, setGen, Vector.getElem_set, Fin.ext_iff]

@[simp] theorem gen_setGen_self (i : RecordIndex) (g : BitVec 4) : (s.setGen i g).gen i = g := by simp [gen_setGen]

@[simp] theorem slot_setGen (i j : RecordIndex) (g : BitVec 4) : (s.setGen i g).slot j = s.slot j := rfl

@[simp] theorem leg_setLeg_self (l : Leg) (v : LegState) : (s.setLeg l v).leg l = v := by simp [leg]

theorem leg_setLeg (l m : Leg) (v : LegState) : (s.setLeg l v).leg m = if l = m then v else s.leg m := by
  simp [leg, PerLeg.get_set]

@[simp] theorem port_setPort_self (l : Leg) (v : Port) : (s.setPort l v).port l = v := by simp [port]

theorem port_setPort (l m : Leg) (v : Port) : (s.setPort l v).port m = if l = m then v else s.port m := by
  simp [port, PerLeg.get_set]

@[simp] theorem queue_setQueue_self (l : Leg) (q : List Handle) : (s.setQueue l q).queue l = q := by simp [queue]

theorem queue_setQueue (l m : Leg) (q : List Handle) : (s.setQueue l q).queue m = if l = m then q else s.queue m := by
  simp [queue, PerLeg.get_set]

@[simp] theorem node_setNode_self (n : NodeNumber) (v : Node) : (s.setNode n v).node n = v := by
  simp [node, setNode]

@[simp] theorem line_setNode (n : NodeNumber) (v : Node) :
    (s.setNode n v).attn.line = lineOf (s.setNode n v).attn.nodes := rfl

end Machine.State

end Sys2Proof
end

