-- ==== Sys2Proof/Laws/Calm.lean ====
section
/-! SUPPORT. What a cascade can do: Calm says once what no shared operation of the store, the legs, the sequencer, the
monitor, the trips and the attention unit changes, and which laws each keeps. -/

namespace Sys2Proof.Machine

/-- What a cascade may reach beyond its own effects. -/
structure Scope where
  /-- a step confirmation: the order pointer, the stride counter and the sweep may move -/
  adv : Bool
  /-- inside a lift readiness evaluation: the gait has not followed the hold reason set yet -/
  ev : Bool
  /-- a port's own event: more of a port than its orders may change -/
  port : Bool

/-- The scope of an ordinary cascade. -/
def Scope.plain : Scope := ⟨false, false, false⟩

/-- No leg holds the record: it is CANDIDATE or SUSPECT (1.2). -/
def FootRecord.Unheld (r : FootRecord) : Prop := r.state = .candidate ∨ r.state = .suspect

/-- A record that no leg holds stays as it is; one that a leg holds keeps its slot and its origin, or it is freed and its
index's generation advances by one (R2, R6, R16). -/
def slotCalm (a b : Option FootRecord) (g g' : BitVec 4) : Prop :=
  match a with
  | none => b = none ∧ g' = g
  | some r =>
    (r.Unheld → b = some r ∧ g' = g)
      ∧ ((∃ r', b = some r' ∧ r'.origin = r.origin ∧ g' = g) ∨ (b = none ∧ g' = g + 1))

structure StoreCalm (k : Scope) (a b : Store) : Prop where
  friction : b.friction = a.friction
  walk : b.walk = a.walk
  sweep : k.adv = false → b.sweep = a.sweep
  slots : ∀ i : RecordIndex, slotCalm a.slots[i] b.slots[i] a.gens[i] b.gens[i]

/-- haltLaw of a sequencer (R114). -/
def Sequencer.haltOk (q : Sequencer) : Prop := q.gait = .halted ↔ q.haltReason.isSome = true

/-- walkLaw of a sequencer (R115). -/
def Sequencer.walkOk (q : Sequencer) : Prop :=
  (q.gait = .walking → q.reasons = .empty) ∧ (q.gait = .holding → q.reasons ≠ .empty)

structure SeqCalm (k : Scope) (a b : Sequencer) : Prop where
  pattern : b.pattern = a.pattern
  pointer : k.adv = false → b.pointer = a.pointer
  stride : k.adv = false → b.stride = a.stride
  halt : a.haltOk → b.haltOk
  walk : k.ev = false → a.walkOk → b.walkOk
  halted : a.gait = .halted → b.gait = .halted ∧ b.haltReason = a.haltReason

/-- downLaw of a port (R68, R76). -/
def Port.downOk (p : Port) : Prop :=
  p.linkUp = false → p.pending = none ∧ p.lastKind = none ∧ p.echoTimer = .stopped ∧ p.slipHeld = false

/-- A port in which at most the order in hand has changed. -/
structure PortCalm (p q : Port) : Prop where
  linkUp : q.linkUp = p.linkUp
  loss : q.loss = p.loss
  windowCount : q.windowCount = p.windowCount
  goodRun : q.goodRun = p.goodRun
  windowPeriod : q.windowPeriod = p.windowPeriod
  arming : q.arming = p.arming
  slipHeld : q.slipHeld = p.slipHeld
  rearmTimer : q.rearmTimer = p.rearmTimer
  jointFault : q.jointFault = p.jointFault
  report : q.report = p.report

structure PortsCalm (k : Scope) (a b : PerLeg Port) : Prop where
  same : k.port = false → ∀ l, PortCalm (a.get l) (b.get l)
  down : (∀ l, (a.get l).downOk) → ∀ l, (b.get l).downOk

structure BalCalm (a b : Balance) : Prop where
  pose : b.pose = a.pose
  freshness : b.freshness = a.freshness
  poseTimer : b.poseTimer = a.poseTimer
  sat : a.sat = true → b.sat = true
  degen : a.degen = true → b.degen = true

/-- The configuration of a term (R152). -/
def WatchTerm.config (t : WatchTerm) : Bool × Source × Leg × Relation × Word :=
  (t.enabled, t.source, t.leg, t.relation, t.threshold)

/-- The configuration of a trip (R157). -/
def Trip.config (t : Trip) : TripMode × BitVec 8 × Fin 8 × Fin 8 × Nat × TripAction :=
  (t.mode, t.mask, t.first, t.second, t.window, t.action)

structure TripsCalm (a b : TripUnit) : Prop where
  terms : ∀ n : Fin 8, b.terms[n].config = a.terms[n].config
  trips : ∀ n : Fin 4, b.trips[n].config = a.trips[n].config

/-- A node keeps its priority and enable, a pending one its detail, and a set more flag stays set (R162). -/
structure NodeCalm (v w : Node) : Prop where
  priority : w.priority = v.priority
  enabled : w.enabled = v.enabled
  pending : v.pending.isSome = true → w.pending = v.pending
  more : v.more = true → w.more = true
  law : (v.more = true → v.pending.isSome = true) → w.more = true → w.pending.isSome = true

structure AttnCalm (a b : Attention) : Prop where
  nodes : ∀ n : NodeNumber, NodeCalm a.nodes[n] b.nodes[n]
  line : a.line = lineOf a.nodes → b.line = lineOf b.nodes
  frameFlag : b.frameFlag = a.frameFlag
  checkFlag : a.checkFlag = true → b.checkFlag = true

/-- What every cascade leaves as it was, and the laws it keeps. -/
structure Calm (k : Scope) (s t : State) : Prop where
  pending : t.pending = s.pending
  lanes : t.lanes = s.lanes
  params : t.params = s.params
  store : StoreCalm k s.store t.store
  queues : (∀ l, (s.queues.get l).length ≤ 3) → ∀ l, (t.queues.get l).length ≤ 3
  ports : PortsCalm k s.ports t.ports
  seq : SeqCalm k s.seq t.seq
  bal : BalCalm s.bal t.bal
  trips : TripsCalm s.trips t.trips
  attn : AttnCalm s.attn t.attn
  orders : s.ordersSent <+: t.ordersSent

/-! ### Nothing done, and one thing after another -/

theorem slotCalm.refl (a : Option FootRecord) (g : BitVec 4) : slotCalm a a g g := by
  cases a <;> simp [slotCalm]

theorem slotCalm.trans {a b c : Option FootRecord} {g g' g'' : BitVec 4} (h : slotCalm a b g g')
    (h' : slotCalm b c g' g'') : slotCalm a c g g'' := by
  cases a with
  | none =>
    obtain ⟨rfl, rfl⟩ := h
    exact h'
  | some r =>
    obtain ⟨hu, h⟩ := h
    constructor
    · intro e
      obtain ⟨rfl, rfl⟩ := hu e
      exact h'.1 e
    · rcases h with ⟨r', rfl, ho, rfl⟩ | ⟨rfl, rfl⟩
      · rcases h'.2 with ⟨r'', rfl, ho', rfl⟩ | ⟨rfl, rfl⟩
        · exact .inl ⟨r'', rfl, ho'.trans ho, rfl⟩
        · exact .inr ⟨rfl, rfl⟩
      · obtain ⟨rfl, rfl⟩ := h'
        exact .inr ⟨rfl, rfl⟩

theorem StoreCalm.refl (k : Scope) (a : Store) : StoreCalm k a a :=
  ⟨rfl, rfl, fun _ => rfl, fun _ => .refl _ _⟩

theorem StoreCalm.trans {k : Scope} {a b c : Store} (h : StoreCalm k a b) (h' : StoreCalm k b c) : StoreCalm k a c :=
  ⟨h'.friction.trans h.friction, h'.walk.trans h.walk, fun e => (h'.sweep e).trans (h.sweep e),
    fun i => (h.slots i).trans (h'.slots i)⟩

theorem SeqCalm.refl (k : Scope) (a : Sequencer) : SeqCalm k a a :=
  ⟨rfl, fun _ => rfl, fun _ => rfl, id, fun _ => id, fun e => ⟨e, rfl⟩⟩

theorem SeqCalm.trans {k : Scope} {a b c : Sequencer} (h : SeqCalm k a b) (h' : SeqCalm k b c) : SeqCalm k a c :=
  ⟨h'.pattern.trans h.pattern, fun e => (h'.pointer e).trans (h.pointer e), fun e => (h'.stride e).trans (h.stride e),
    fun e => h'.halt (h.halt e), fun e w => h'.walk e (h.walk e w),
    fun e => ⟨(h'.halted (h.halted e).1).1, ((h'.halted (h.halted e).1).2).trans (h.halted e).2⟩⟩

theorem PortCalm.refl (p : Port) : PortCalm p p := ⟨rfl, rfl, rfl, rfl, rfl, rfl, rfl, rfl, rfl, rfl⟩

theorem PortCalm.trans {p q r : Port} (h : PortCalm p q) (h' : PortCalm q r) : PortCalm p r :=
  ⟨h'.1.trans h.1, h'.2.trans h.2, h'.3.trans h.3, h'.4.trans h.4, h'.5.trans h.5, h'.6.trans h.6, h'.7.trans h.7,
    h'.8.trans h.8, h'.9.trans h.9, h'.10.trans h.10⟩

theorem PortsCalm.refl (k : Scope) (a : PerLeg Port) : PortsCalm k a a := ⟨fun _ _ => .refl _, id⟩

theorem PortsCalm.trans {k : Scope} {a b c : PerLeg Port} (h : PortsCalm k a b) (h' : PortsCalm k b c) :
    PortsCalm k a c :=
  ⟨fun e l => (h.same e l).trans (h'.same e l), fun e => h'.down (h.down e)⟩

theorem BalCalm.refl (a : Balance) : BalCalm a a := ⟨rfl, rfl, rfl, id, id⟩

theorem BalCalm.trans {a b c : Balance} (h : BalCalm a b) (h' : BalCalm b c) : BalCalm a c :=
  ⟨h'.1.trans h.1, h'.2.trans h.2, h'.3.trans h.3, fun e => h'.4 (h.4 e), fun e => h'.5 (h.5 e)⟩

theorem TripsCalm.refl (a : TripUnit) : TripsCalm a a := ⟨fun _ => rfl, fun _ => rfl⟩

theorem TripsCalm.trans {a b c : TripUnit} (h : TripsCalm a b) (h' : TripsCalm b c) : TripsCalm a c :=
  ⟨fun n => (h'.1 n).trans (h.1 n), fun n => (h'.2 n).trans (h.2 n)⟩

theorem NodeCalm.refl (v : Node) : NodeCalm v v := ⟨rfl, rfl, fun _ => rfl, id, id⟩

theorem NodeCalm.trans {u v w : Node} (h : NodeCalm u v) (h' : NodeCalm v w) : NodeCalm u w :=
  ⟨h'.1.trans h.1, h'.2.trans h.2, fun e => (h'.3 (by rw [h.3 e]; exact e)).trans (h.3 e), fun e => h'.4 (h.4 e),
    fun e => h'.5 (h.5 e)⟩

theorem AttnCalm.refl (a : Attention) : AttnCalm a a := ⟨fun _ => .refl _, id, rfl, id⟩

theorem AttnCalm.trans {a b c : Attention} (h : AttnCalm a b) (h' : AttnCalm b c) : AttnCalm a c :=
  ⟨fun n => (h.1 n).trans (h'.1 n), fun e => h'.2 (h.2 e), h'.3.trans h.3, fun e => h'.4 (h.4 e)⟩

namespace Calm

variable {k : Scope} {s t u : State}

theorem refl (k : Scope) (s : State) : Calm k s s :=
  ⟨rfl, rfl, rfl, .refl _ _, id, .refl _ _, .refl _ _, .refl _, .refl _, .refl _, List.prefix_refl _⟩

theorem trans (h : Calm k s t) (h' : Calm k t u) : Calm k s u :=
  ⟨h'.1.trans h.1, h'.2.trans h.2, h'.3.trans h.3, h.4.trans h'.4, fun e => h'.5 (h.5 e), h.6.trans h'.6,
    h.7.trans h'.7, h.8.trans h'.8, h.9.trans h'.9, h.10.trans h'.10, h.11.trans h'.11⟩

/-- A plain cascade is calm in every scope. -/
theorem any (h : Calm .plain s t) : Calm k s t :=
  ⟨h.1, h.2, h.3, ⟨h.4.1, h.4.2, fun _ => h.4.3 rfl, h.4.4⟩, h.5, ⟨fun _ => h.6.1 rfl, h.6.2⟩,
    ⟨h.7.1, fun _ => h.7.2 rfl, fun _ => h.7.3 rfl, h.7.4, fun _ => h.7.5 rfl, h.7.6⟩, h.8, h.9, h.10, h.11⟩

theorem ite {c : Prop} [Decidable c] {a b : State} (ha : c → Calm k s a) (hb : ¬c → Calm k s b) :
    Calm k s (if c then a else b) := by
  split
  · exact ha ‹_›
  · exact hb ‹_›

theorem foldl {α : Type} {f : State → α → State} (hf : ∀ s a, Calm k s (f s a)) (l : List α) (s : State) :
    Calm k s (l.foldl f s) := by
  induction l generalizing s with
  | nil => exact refl k s
  | cons a l ih => exact (hf s a).trans (ih (f s a))

end Calm

end Sys2Proof.Machine
end

