-- ==== Sys2Proof/Laws/Cascades.lean ====
section
/-! SUPPORT. Every shared operation of a cascade is calm (Laws/Calm.lean): one lemma for each. -/

namespace Sys2Proof.Machine

variable {k : Scope} {s t : State}

/-! ### One block replaced -/

theorem Calm.setStore (st : Store) (h : StoreCalm k s.store st) : Calm k s (s.setStore st) :=
  { Calm.refl k s with store := h }

theorem Calm.setSlot (i : RecordIndex) (r : Option FootRecord) (h : slotCalm (s.slot i) r (s.gen i) (s.gen i)) :
    Calm k s (s.setSlot i r) := by
  refine Calm.setStore _ ⟨rfl, rfl, fun _ => rfl, fun j => ?_⟩
  by_cases e : i = j
  · subst e
    simpa [State.slot, State.gen] using h
  · have : i.val ≠ j.val := fun h => e (Fin.ext h)
    simpa [Vector.getElem_set, this] using slotCalm.refl _ _

theorem Calm.setLeg (l : Leg) (v : LegState) : Calm k s (s.setLeg l v) :=
  { Calm.refl k s with }

theorem Calm.setQueue (l : Leg) (q : List Handle) (h : (s.queue l).length ≤ 3 → q.length ≤ 3) :
    Calm k s (s.setQueue l q) :=
  { Calm.refl k s with
    queues := fun e m => by
      change ((s.queues.set l q).get m).length ≤ 3
      rw [PerLeg.get_set]
      split
      · exact h (e l)
      · exact e m }

theorem Calm.setSeq (q : Sequencer) (h : SeqCalm k s.seq q) : Calm k s (s.setSeq q) :=
  { Calm.refl k s with seq := h }

theorem Calm.setBal (b : Balance) (h : BalCalm s.bal b) : Calm k s (s.setBal b) :=
  { Calm.refl k s with bal := h }

theorem Calm.setTrips (u : TripUnit) (h : TripsCalm s.trips u) : Calm k s (s.setTrips u) :=
  { Calm.refl k s with trips := h }

theorem Calm.setAttn (a : Attention) (h : AttnCalm s.attn a) : Calm k s { s with attn := a } :=
  { Calm.refl k s with attn := h }

theorem Calm.setPort (l : Leg) (p : Port) (h : k.port = false → PortCalm (s.port l) p)
    (d : (s.port l).downOk → p.downOk) : Calm k s (s.setPort l p) :=
  { Calm.refl k s with
    ports := ⟨fun e m => by
        change PortCalm _ ((s.ports.set l p).get m)
        rw [PerLeg.get_set]
        split
        · subst l
          exact h e
        · exact .refl _,
      fun e m => by
        change ((s.ports.set l p).get m).downOk
        rw [PerLeg.get_set]
        split
        · exact d (e l)
        · exact e m⟩ }

theorem Calm.sent (o : List (Leg × Order)) (h : s.ordersSent <+: o) : Calm k s { s with ordersSent := o } :=
  { Calm.refl k s with orders := h }

/-! ### Ops -/

/-- What a transition of a held record keeps: the origin, and all of a record that no leg holds. -/
structure KeepsUnheld (f : FootRecord → FootRecord) : Prop where
  origin : ∀ r, (f r).origin = r.origin
  unheld : ∀ r, r.Unheld → f r = r

theorem slotCalm.kept {f : FootRecord → FootRecord} (h : KeepsUnheld f) (r : FootRecord) (g : BitVec 4) :
    slotCalm (some r) (some (f r)) g g :=
  ⟨fun e => ⟨by rw [h.unheld r e], rfl⟩, .inl ⟨_, rfl, h.origin r, rfl⟩⟩

/-- A record that some leg holds replaced by one of the same origin. -/
theorem slotCalm.held {r r' : FootRecord} (g : BitVec 4) (h : ¬r.Unheld) (ho : r'.origin = r.origin) :
    slotCalm (some r) (some r') g g :=
  ⟨fun e => absurd e h, .inl ⟨_, rfl, ho, rfl⟩⟩

theorem State.modRecord_calm (i : RecordIndex) (f : FootRecord → FootRecord) (h : KeepsUnheld f) :
    Calm k s (s.modRecord i f) := by
  unfold State.modRecord
  split
  · rename_i r hr
    exact Calm.setSlot i _ (by rw [hr]; exact slotCalm.kept h r _)
  · exact .refl _ _

theorem State.pend_calm (n : NodeNumber) (d : Detail) : Calm k s (s.pend n d) := by
  refine Calm.setAttn _ ⟨fun m => ?_, fun _ => rfl, rfl, id⟩
  by_cases e : n = m
  · subst e
    simp only [Fin.getElem_fin, Vector.getElem_set_self, State.node, Node.pend]
    split <;> rename_i hp <;> constructor <;> simp_all
  · have : n.val ≠ m.val := fun h => e (Fin.ext h)
    simpa [Vector.getElem_set, this] using NodeCalm.refl _

/-- The record at an index, if there is one, is held by a leg. -/
def State.Held (s : State) (i : RecordIndex) : Prop := ∀ r, s.slot i = some r → ¬r.Unheld

theorem State.Held.of {i : RecordIndex} {r : FootRecord} (hr : s.slot i = some r) (h : ¬r.Unheld) : s.Held i := by
  intro r' h'
  rw [hr] at h'
  cases h'
  exact h

theorem State.freeRecord_calm (i : RecordIndex) (reason : RetireReason) (hh : s.Held i) :
    Calm k s (s.freeRecord i reason) := by
  unfold State.freeRecord
  split
  · exact .refl _ _
  · rename_i r hr
    have hf : Calm k s ((s.setSlot i none).setGen i (s.gen i + 1)) := by
      refine Calm.setStore
        { s.store with slots := s.store.slots.set i none, gens := s.store.gens.set i (s.gen i + 1) }
        ⟨rfl, rfl, fun _ => rfl, fun j => ?_⟩
      by_cases e : i = j
      · subst e
        have : s.store.slots[i] = some r := hr
        have := hh r hr
        simp_all [slotCalm, State.gen]
      · have : i.val ≠ j.val := fun h => e (Fin.ext h)
        simpa [Vector.getElem_set, this] using slotCalm.refl _ _
    exact Calm.ite (fun _ => hf) fun _ => hf.trans (State.pend_calm _ _)

theorem State.setCheckFlag_calm : Calm k s s.setCheckFlag :=
  Calm.setAttn _ ⟨fun _ => .refl _, id, rfl, fun _ => rfl⟩

theorem State.freeFailed_calm (i : RecordIndex) (h : s.Held i) : Calm k s (s.freeFailed i) :=
  State.setCheckFlag_calm.trans (State.freeRecord_calm i .check h)

theorem FootRecord.markFailed_keeps : KeepsUnheld FootRecord.markFailed := by
  constructor <;> intro r <;> unfold FootRecord.markFailed
  · split <;> rfl
  · rintro (h | h) <;> simp [h]

theorem State.flagFailed_calm (i : RecordIndex) : Calm k s (s.flagFailed i) :=
  (State.setCheckFlag_calm.trans (State.modRecord_calm i _ FootRecord.markFailed_keeps)).trans (State.pend_calm _ _)

theorem State.sendOrder_calm (l : Leg) (kind : OrderKind) (dx dy z : Word) :
    Calm k s (s.sendOrder l kind dx dy z) := by
  unfold State.sendOrder
  dsimp only
  split
  · rename_i hu
    refine Calm.trans (t := s.setPort l _) (Calm.setPort l _ ?_ ?_) (Calm.sent _ (List.prefix_append _ _))
    · exact fun _ => ⟨rfl, rfl, rfl, rfl, rfl, rfl, rfl, rfl, rfl, rfl⟩
    · intro _ hd
      simp_all
  · exact .refl _ _

theorem State.sendPlain_calm (l : Leg) (kind : OrderKind) : Calm k s (s.sendPlain l kind) := sendOrder_calm ..

theorem State.dropFromQueue_calm (l : Leg) (i : RecordIndex) : Calm k s (s.dropFromQueue l i) :=
  Calm.setQueue _ _ fun h => (List.length_filter_le _ _).trans h

/-! ### Transitions keep the origin, and all of a record that no leg holds -/

theorem FootRecord.takeAsTarget_keeps (n : BitVec 12) (l : Leg) : KeepsUnheld (FootRecord.takeAsTarget n l) := by
  constructor <;> intro r <;> unfold FootRecord.takeAsTarget
  · split <;> rfl
  · rintro (h | h) <;> simp [h]

theorem FootRecord.handBack_keeps (n : BitVec 12) (l : Leg) : KeepsUnheld (FootRecord.handBack n l) := by
  constructor <;> intro r <;> unfold FootRecord.handBack
  · split <;> rfl
  · rintro (h | h) <;> simp [h]

theorem FootRecord.unreserve_keeps (n : BitVec 12) (l : Leg) : KeepsUnheld (FootRecord.unreserve n l) := by
  constructor <;> intro r <;> unfold FootRecord.unreserve
  · split <;> rfl
  · rintro (h | h) <;> simp [h]

theorem FootRecord.releaseTarget_keeps (n : BitVec 12) (l : Leg) : KeepsUnheld (FootRecord.releaseTarget n l) := by
  constructor <;> intro r <;> unfold FootRecord.releaseTarget
  · split <;> rfl
  · rintro (h | h) <;> simp [h]

theorem FootRecord.confirm_keeps (n : BitVec 12) (l : Leg) : KeepsUnheld (FootRecord.confirm n l) := by
  constructor <;> intro r <;> unfold FootRecord.confirm
  · split <;> rfl
  · rintro (h | h) <;> simp [h]

theorem FootRecord.suspectTarget_keeps (n : BitVec 12) (l : Leg) : KeepsUnheld (FootRecord.suspectTarget n l) := by
  constructor <;> intro r <;> unfold FootRecord.suspectTarget
  · split <;> rfl
  · rintro (h | h) <;> simp [h]

theorem FootRecord.suspectLoaded_origin (n : BitVec 12) (r : FootRecord) : (r.suspectLoaded n).origin = r.origin := by
  unfold FootRecord.suspectLoaded
  split <;> rfl

/-! ### Placement -/

theorem State.failReserved_calm (l : Leg) (i : RecordIndex) (h : s.Held i) : Calm k s (s.failReserved l i) :=
  (State.dropFromQueue_calm l i).trans (State.freeFailed_calm i h)

/-- A front that is found failing its check is RESERVED for the leg. -/
theorem State.frontTest_failed {l : Leg} {h : Handle} (e : s.frontTest l = .failed h) :
    ∃ r, s.slot h.index = some r ∧ r.state = .reserved l ∧ verifies r.content (s.gen h.index) = false := by
  unfold State.frontTest at e
  split at e
  · cases e
  · split at e
    · cases e
    · rename_i r hr
      repeat' split at e
      all_goals cases e
      exact ⟨r, hr, by simp_all, by simp_all⟩

theorem State.frontTest_held {l : Leg} {h : Handle} (e : s.frontTest l = .failed h) : s.Held h.index := by
  obtain ⟨r, hr, hs, _⟩ := State.frontTest_failed e
  exact State.Held.of hr (by simp [FootRecord.Unheld, hs])

theorem State.takeFront_calm (l : Leg) (h : Handle) : Calm k s (s.takeFront l h) :=
  (State.dropFromQueue_calm l h.index).trans (State.modRecord_calm _ _ (FootRecord.takeAsTarget_keeps _ _))

theorem State.enterSeeking_calm (l : Leg) : Calm k s (s.enterSeeking l) :=
  (Calm.setLeg l _).trans (State.sendPlain_calm _ _)

theorem State.composePlace_calm (l : Leg) : Calm k s (s.composePlace l) := by
  unfold State.composePlace
  split
  · exact .refl _ _
  split
  · exact .refl _ _
  rename_i r hr
  refine Calm.ite (fun _ => .refl _ _) fun ht => Calm.ite (fun _ => State.sendOrder_calm ..) fun _ => ?_
  have ht : r.state = .target l := by simpa using ht
  exact (State.freeFailed_calm _ (State.Held.of hr (by simp [FootRecord.Unheld, ht]))).trans (State.enterSeeking_calm _)

theorem State.enterSwing_calm (l : Leg) (h : Handle) : Calm k s (s.enterSwing l h) :=
  ((State.takeFront_calm l h).trans (Calm.setLeg l _)).trans (State.composePlace_calm _)

theorem State.setNewFront_calm (l : Leg) (b : Bool) : Calm k s (s.setNewFront l b) :=
  { Calm.refl k s with }

theorem State.failFront_calm (l : Leg) (h : Handle) (hh : s.Held h.index) : Calm k s (s.failFront l h) := by
  unfold State.failFront
  have h1 : Calm k s (s.failReserved l h.index) := State.failReserved_calm l h.index hh
  exact Calm.ite (fun _ => h1) fun _ => h1.trans (State.setNewFront_calm l true)

theorem State.takeForSeeking_calm (l : Leg) : Calm k s (s.takeForSeeking l) := by
  unfold State.takeForSeeking
  split
  · exact .refl _ _
  · exact .refl _ _
  · rename_i e
    exact State.failFront_calm _ _ (State.frontTest_held e)
  · exact State.enterSwing_calm _ _

theorem State.seek_calm (l : Leg) : Calm k s (s.seek l) :=
  Calm.ite (fun _ => State.takeForSeeking_calm l) fun _ => .refl _ _

/-! ### Halt -/

theorem State.settleGait_calm : Calm k s s.settleGait := by
  unfold State.settleGait
  split <;> rename_i hg
  · refine Calm.ite (fun _ => .refl _ _) fun he => (Calm.setSeq _ ?_).trans (State.pend_calm _ _)
    constructor <;> simp_all [Sequencer.haltOk, Sequencer.walkOk]
  · refine Calm.ite (fun he => Calm.setSeq _ ?_) fun _ => .refl _ _
    constructor <;> simp_all [Sequencer.haltOk, Sequencer.walkOk]
  all_goals exact .refl _ _

/-- A reason put in or out: the gait is left to follow, so the walk law is not kept here. -/
theorem State.putReason_calm (x : HoldReason) (b : Bool) (h : k.ev = true) : Calm k s (s.putReason x b) := by
  refine Calm.setSeq _ ?_
  constructor <;> simp_all [Sequencer.haltOk]

/-- After the gait has followed the set the walk law holds, whatever it was before (R115). -/
theorem State.settleGait_walkOk (s : State) : s.settleGait.seq.walkOk := by
  unfold State.settleGait
  split <;> rename_i hg
  · split
    · constructor <;> simp_all
    · constructor <;> simp_all
  · split
    · constructor <;> simp_all
    · constructor <;> simp_all
  all_goals constructor <;> simp_all

/-- A calm run inside an evaluation is calm outside it where the walk law holds at its end. -/
theorem Calm.settled (h : Calm ⟨k.adv, true, k.port⟩ s t) (w : s.seq.walkOk → t.seq.walkOk) : Calm k s t :=
  ⟨h.1, h.2, h.3, ⟨h.4.1, h.4.2, h.4.3, h.4.4⟩, h.5, ⟨h.6.1, h.6.2⟩,
    ⟨h.7.1, h.7.2, h.7.3, h.7.4, fun _ => w, h.7.6⟩, h.8, h.9, h.10, h.11⟩

theorem State.addReason_calm (x : HoldReason) : Calm k s (s.addReason x) :=
  Calm.settled ((State.putReason_calm x true rfl).trans State.settleGait_calm) fun _ => State.settleGait_walkOk _

theorem Calm.withdrawn {l : Leg} {h : Handle} : Calm k s (s.handBackTarget l h) := by
  unfold State.handBackTarget
  dsimp only
  have h1 : Calm k s (s.modRecord h.index (FootRecord.handBack s.seq.stride l)) :=
    State.modRecord_calm _ _ (FootRecord.handBack_keeps _ _)
  split
  · rename_i hn
    exact h1.trans (Calm.setQueue _ _ fun _ => Nat.le_of_lt_succ (List.getElem?_eq_none_iff.mp hn |>.trans_lt (by decide)))
  · exact (h1.trans (Calm.setQueue _ _ fun _ => by simp)).trans
      (State.modRecord_calm _ _ (FootRecord.unreserve_keeps _ _))

theorem State.backToStance_calm (l : Leg) : Calm k s (s.backToStance l) :=
  (Calm.setLeg l _).trans (State.sendPlain_calm _ _)

theorem State.withdrawLift_calm (l : Leg) : Calm k s (s.withdrawLift l) := by
  unfold State.withdrawLift
  refine Calm.ite (fun _ => ?_) fun _ => .refl _ _
  split
  · exact Calm.withdrawn.trans (State.backToStance_calm _)
  · exact State.backToStance_calm _

theorem State.braceStance_calm (l : Leg) : Calm k s (s.braceStance l) :=
  Calm.ite (fun _ => State.sendPlain_calm _ _) fun _ => .refl _ _

/-- A change to STANDING, STOPPING or another gait that neither walks nor is HALTED. -/
theorem State.leaveTo_calm (g : Gait) (hg : g = .standing ∨ g = .stopping) (h : s.seq.gait ≠ .halted) :
    Calm k s (s.leaveTo g) := by
  refine Calm.setSeq _ ?_
  rcases hg with rfl | rfl <;> constructor <;> simp_all [Sequencer.haltOk, Sequencer.walkOk]

theorem State.haltEntry_calm (c : HaltCause) : Calm k s (s.haltEntry c) := by
  unfold State.haltEntry
  refine Calm.ite (fun _ => .refl _ _) fun hc => ?_
  have hh : s.seq.gait ≠ .halted := fun e => hc (.inl e)
  have h1 : Calm k s ((s.leaveTo .halted).setSeq { (s.leaveTo .halted).seq with haltReason := some c }) := by
    change Calm k s (s.setSeq _)
    refine Calm.setSeq _ ?_
    constructor <;> simp_all [Sequencer.haltOk, Sequencer.walkOk, State.leaveTo]
  dsimp only
  generalize (s.leaveTo .halted).setSeq { (s.leaveTo .halted).seq with haltReason := some c } = a at h1 ⊢
  have h2 : Calm k s (Leg.all.foldl State.withdrawLift a) :=
    h1.trans (Calm.foldl (fun _ l => State.withdrawLift_calm l) Leg.all a)
  generalize Leg.all.foldl State.withdrawLift a = b at h2 ⊢
  have h3 : Calm k s (Leg.all.foldl State.braceStance b) :=
    h2.trans (Calm.foldl (fun _ l => State.braceStance_calm l) Leg.all b)
  generalize Leg.all.foldl State.braceStance b = d at h3 ⊢
  have h4 : Calm k s { d with attn := { d.attn with tipHolds := false } } :=
    h3.trans (Calm.setAttn { d.attn with tipHolds := false } ⟨fun _ => .refl _, id, rfl, id⟩)
  generalize ({ d with attn := { d.attn with tipHolds := false } } : State) = e at h4 ⊢
  have h5 : Calm k s (e.pend nodeGait (.gaitHalted c)) := h4.trans (State.pend_calm _ _)
  generalize e.pend nodeGait (.gaitHalted c) = u at h5 ⊢
  exact Calm.ite (fun _ => h5.trans (Calm.foldl (fun _ l => State.seek_calm l) Leg.all u)) fun _ => h5

/-! ### Trips -/

theorem WatchTerm.deliver_config (src : Source) (l : Leg) (v : Int) (w : WatchTerm) :
    (w.deliver src l v).config = w.config := by
  unfold WatchTerm.deliver
  split <;> rfl

theorem Trip.test_config (w : Trip) (a b : BitVec 8) : (w.test a b).1.config = w.config := by
  unfold Trip.test
  dsimp only
  repeat' split
  all_goals rfl

theorem State.setTrip_calm (n : Fin 4) (w : Trip) (h : w.config = (s.trip n).config) : Calm k s (s.setTrip n w) := by
  refine Calm.setTrips _ ⟨fun _ => rfl, fun m => ?_⟩
  by_cases e : n = m
  · subst e
    simpa [State.trip] using h
  · have : n.val ≠ m.val := fun h => e (Fin.ext h)
    simp [this]

theorem State.fireTrip_calm (e : Bool) (n : Fin 4) (h : e = true → k.ev = true) : Calm k s (s.fireTrip e n) := by
  unfold State.fireTrip
  dsimp only
  have h1 : Calm k s ((s.setTrip n { s.trip n with state := .fired, timer := .stopped }).pend nodeTrip (.trip n)) :=
    (State.setTrip_calm n { s.trip n with state := .fired, timer := .stopped } rfl).trans (State.pend_calm _ _)
  split
  · exact h1
  · exact h1.trans (Calm.ite (fun he => State.putReason_calm _ _ (h he)) fun _ => State.addReason_calm _)
  · exact h1.trans (State.haltEntry_calm _)

theorem State.testTrip_calm (e : Bool) (a b : BitVec 8) (n : Fin 4) (h : e = true → k.ev = true) :
    Calm k s (s.testTrip e a b n) := by
  unfold State.testTrip
  have h1 := State.setTrip_calm (k := k) (s := s) n _ (Trip.test_config (s.trip n) a b)
  exact Calm.ite (fun _ => h1.trans (State.fireTrip_calm e n h)) fun _ => h1

theorem State.testTrips_calm (e : Bool) (a b : BitVec 8) (h : e = true → k.ev = true) :
    Calm k s (s.testTrips e a b) :=
  Calm.foldl (fun _ n => State.testTrip_calm e a b n h) _ _

theorem State.deliverOnly_calm (e : Bool) (src : Source) (l : Leg) (v : Int) (h : e = true → k.ev = true) :
    Calm k s (s.deliverOnly e src l v) := by
  unfold State.deliverOnly
  dsimp only
  refine Calm.trans (Calm.setTrips _ ?_) (State.testTrips_calm e _ _ h)
  exact ⟨fun n => by simp [WatchTerm.deliver_config], fun _ => rfl⟩

theorem State.recountOverflow_calm (b : State) (h : Calm k s t) : Calm k s (b.recountOverflow t) :=
  Calm.ite (fun _ => h.trans (State.deliverOnly_calm false _ _ _ (by simp))) fun _ => h

theorem State.deliver_calm (e : Bool) (src : Source) (l : Leg) (v : Int) (h : e = true → k.ev = true) :
    Calm k s (s.deliver e src l v) :=
  State.recountOverflow_calm s (State.deliverOnly_calm e src l v h)

theorem State.deliverFalse_calm (src : Source) (l : Leg) (v : Int) : Calm k s (s.deliver false src l v) :=
  State.deliver_calm false src l v (by simp)

theorem State.recount_calm : Calm k s s.recount := State.deliverFalse_calm ..

theorem State.recountIf_calm (b : Bool) : Calm k s (s.recountIf b) :=
  Calm.ite (fun _ => State.recount_calm) fun _ => .refl _ _

theorem State.haltCause_calm (c : HaltCause) : Calm k s (s.haltCause c) :=
  State.recountOverflow_calm s (State.haltEntry_calm c)

/-! ### The balance monitor -/

theorem verifyMember_calm (skip : Option Leg) (acc : State × Bool) (l : Leg) :
    Calm k acc.1 (verifyMember skip acc l).1 := by
  unfold verifyMember
  split
  · exact .refl _ _
  split
  · exact .refl _ _
  split
  · exact .refl _ _
  · exact (State.flagFailed_calm _).trans (State.haltCause_calm _)

theorem State.verifySupport_calm (skip : Option Leg) : Calm k s (s.verifySupport skip).1 := by
  have : ∀ (ls : List Leg) (acc : State × Bool), Calm k acc.1 (ls.foldl (verifyMember skip) acc).1 := by
    intro ls
    induction ls with
    | nil => exact fun _ => .refl _ _
    | cons a ls ih => exact fun acc => (verifyMember_calm skip acc a).trans (ih _)
  exact this Leg.all (s, false)

theorem State.recordCurrent_calm : Calm k s s.recordCurrent :=
  Calm.setBal _ ⟨rfl, rfl, rfl, fun e => by simp [Balance.noteMargin, e], fun e => by simp [Balance.noteMargin, e]⟩

theorem State.recordLift_calm (l : Leg) : Calm k s (s.recordLift l) :=
  Calm.setBal _ ⟨rfl, rfl, rfl, fun e => by simp [Balance.noteMargin, e], fun e => by simp [Balance.noteMargin, e]⟩

theorem State.testTip_calm : Calm k s s.testTip :=
  Calm.ite
    (fun _ => ((Calm.setAttn { s.attn with tipHolds := true } ⟨fun _ => .refl _, id, rfl, id⟩).trans
      (State.pend_calm _ _)).trans (State.haltCause_calm _))
    fun _ => .refl _ _

theorem State.computeCurrent_calm : Calm k s s.computeCurrent :=
  Calm.ite (fun _ => .refl _ _) fun _ =>
    (((State.verifySupport_calm none).trans State.recordCurrent_calm).trans State.testTip_calm).trans
      (State.deliverFalse_calm ..)

theorem State.computeLift_calm (l : Leg) (h : k.ev = true) : Calm k s (s.computeLift l) := by
  unfold State.computeLift
  dsimp only
  have h1 : Calm k s ((s.verifySupport (some l)).1.recordLift l) :=
    (State.verifySupport_calm (some l)).trans (State.recordLift_calm l)
  generalize (s.verifySupport (some l)).1.recordLift l = a at h1 ⊢
  have h1 := h1.trans (State.deliver_calm true .liftMargin .lf a.bal.lift.value.toInt fun _ => h)
  exact Calm.ite (fun _ => h1.trans State.computeCurrent_calm) fun _ => h1

theorem State.failLoaded_calm (i : RecordIndex) : Calm k s (s.failLoaded i) :=
  ((State.flagFailed_calm i).trans (State.haltCause_calm .check)).trans State.computeCurrent_calm

/-! ### The gait sequencer -/

theorem State.afterFront_calm (l : Leg) : Calm k s (s.afterFront l) := by
  unfold State.afterFront
  split
  · rename_i e
    exact State.failReserved_calm _ _ (State.frontTest_held e)
  all_goals exact .refl _ _

theorem State.putThree_calm (a b c : Bool) (h : k.ev = true) : Calm k s (s.putThree a b c) := by
  refine Calm.setSeq _ ?_
  constructor <;> simp_all [Sequencer.haltOk]

/-- A pending lift asked for. -/
theorem Calm.askLift (l : Option Leg) : Calm k s (s.setSeq { s.seq with liftPending := l }) :=
  Calm.setSeq _ ⟨rfl, fun _ => rfl, fun _ => rfl, id, fun _ => id, fun e => ⟨e, rfl⟩⟩

theorem State.closeEvaluation_calm (l : Leg) (a b : Bool) (h : k.ev = true) : Calm k s (s.closeEvaluation l a b) := by
  unfold State.closeEvaluation
  have h1 := (State.putThree_calm (k := k) (s := s) s.liftUnsafe (!a) b h).trans State.settleGait_calm
  exact Calm.ite (fun _ => h1.trans (Calm.askLift _)) fun _ => h1

theorem State.closeEvaluation_walkOk (l : Leg) (a b : Bool) : (s.closeEvaluation l a b).seq.walkOk := by
  unfold State.closeEvaluation
  dsimp only
  split
  · exact State.settleGait_walkOk _
  · exact State.settleGait_walkOk _

theorem State.evaluateFrom_calm (l : Leg) : Calm k s (s.evaluateFrom l) := by
  unfold State.evaluateFrom
  dsimp only
  have h1 : Calm ⟨k.adv, true, k.port⟩ s ((s.afterFront l).computeLift l) :=
    (State.afterFront_calm l).trans (State.computeLift_calm l rfl)
  split
  · exact Calm.settled (h1.trans (State.closeEvaluation_calm _ _ _ rfl)) fun _ => State.closeEvaluation_walkOk _ _ _
  · rename_i hw
    refine Calm.settled h1 fun _ => ?_
    simp only [State.walkingSelected] at hw
    generalize ((s.afterFront l).computeLift l).seq = q at hw ⊢
    obtain ⟨g⟩ := q
    cases g <;> simp_all [Gait.isWalking, Sequencer.walkOk]

theorem State.evaluateOnce_calm : Calm k s s.evaluateOnce := by
  unfold State.evaluateOnce
  split
  · split
    · exact Calm.settled ((State.putThree_calm _ _ _ rfl).trans State.settleGait_calm)
        fun _ => State.settleGait_walkOk _
    · exact State.evaluateFrom_calm _
  · exact .refl _ _

theorem evaluations_calm (n : Nat) (s : State) : Calm k s (evaluations n s) := by
  induction n generalizing s with
  | zero => exact .refl _ _
  | succ n ih =>
    unfold evaluations
    split
    · exact State.evaluateOnce_calm.trans (ih _)
    · exact State.evaluateOnce_calm

theorem State.evaluate_calm : Calm k s s.evaluate := evaluations_calm _ _

theorem State.evaluateIfWalking_calm : Calm k s s.evaluateIfWalking :=
  Calm.ite (fun _ => State.evaluate_calm) fun _ => .refl _ _

theorem State.removeReason_calm (x : HoldReason) : Calm k s (s.removeReason x) := by
  unfold State.removeReason
  refine Calm.ite (fun _ => ?_) fun _ => .refl _ _
  have h1 : Calm k s (s.putReason x false).settleGait :=
    Calm.settled ((State.putReason_calm x false rfl).trans State.settleGait_calm) fun _ => State.settleGait_walkOk _
  exact Calm.ite (fun _ => h1.trans State.evaluate_calm) fun _ => h1

theorem State.slipRearmTold_calm : Calm k s s.slipRearmTold :=
  Calm.ite (fun _ => .refl _ _) fun _ => State.removeReason_calm _

theorem State.reportToSequencer_calm (l : Leg) : Calm k s (s.reportToSequencer l) :=
  Calm.ite (fun _ => State.evaluate_calm) fun _ => .refl _ _

theorem State.seekAndReport_calm (l : Leg) : Calm k s (s.seekAndReport l) :=
  Calm.ite (fun _ => State.seek_calm l) fun _ => (State.seek_calm l).trans (State.reportToSequencer_calm l)

theorem State.reportToLeg_calm (l : Leg) (a b : Bool) : Calm k s (s.reportToLeg l a b) :=
  Calm.ite
    (fun _ => Calm.ite (fun _ => Calm.ite (fun _ => State.sendPlain_calm _ _) fun _ => .refl _ _)
      fun _ => Calm.ite (fun _ => State.seekAndReport_calm _) fun _ => .refl _ _)
    fun _ => .refl _ _

theorem State.reportQueue_calm (l : Leg) (q : List Handle) (a : Bool) : Calm k s (s.reportQueue l q a) :=
  (State.reportToSequencer_calm l).trans (State.reportToLeg_calm _ _ _)

theorem State.hearNewFront_calm (l : Leg) : Calm k s (s.hearNewFront l) :=
  Calm.ite (fun _ => State.setNewFront_calm l false) fun _ =>
    (State.setNewFront_calm l false).trans (State.reportToLeg_calm l true false)

theorem State.endStopping_calm : Calm k s s.endStopping := by
  unfold State.endStopping
  refine Calm.ite (fun h => ?_) fun _ => .refl _ _
  exact (State.leaveTo_calm .standing (.inl rfl) (by simp [h.1])).trans (State.pend_calm _ _)

theorem State.withdrawalTold_calm : Calm k s s.withdrawalTold :=
  State.endStopping_calm.trans State.evaluateIfWalking_calm

/-- The order pointer and the stride counter move, and a sweep may start: the one cascade that moves them (R117). -/
theorem State.advanceOrder_calm (l : Leg) (h : k.adv = true) : Calm k s (s.advanceOrder l) := by
  have h1 : Calm k s (s.setSeq { s.seq with pointer := s.seq.pattern.next l }) :=
    Calm.setSeq _ ⟨rfl, fun e => by simp [h] at e, fun _ => rfl, id, fun _ => id, fun e => ⟨e, rfl⟩⟩
  unfold State.advanceOrder
  refine Calm.ite (fun _ => h1.trans ?_) fun _ => h1
  generalize s.setSeq { s.seq with pointer := s.seq.pattern.next l } = a
  refine Calm.trans (t := a.setSeq { a.seq with stride := a.seq.stride + 1 }) (Calm.setSeq _ ?_) (Calm.setStore _ ?_)
  · exact ⟨rfl, fun _ => rfl, fun e => by simp [h] at e, id, fun _ => id, fun e => ⟨e, rfl⟩⟩
  · exact ⟨rfl, rfl, fun e => by simp [h] at e, fun _ => .refl _ _⟩

theorem State.confirmationTold_calm (l : Leg) (b : Bool) (h : k.adv = true) :
    Calm k s (s.confirmationTold l b) := by
  unfold State.confirmationTold
  have h1 : Calm k s (if b then s.advanceOrder l else s) :=
    Calm.ite (fun _ => State.advanceOrder_calm l h) fun _ => .refl _ _
  exact (h1.trans State.endStopping_calm).trans State.evaluateIfWalking_calm

/-! ### The leg phase machines -/

theorem State.seekAfterEntry_calm (l : Leg) : Calm k s (s.seekAfterEntry l) := State.seekAndReport_calm l

theorem State.supportChanged_calm (b : Bool) : Calm k s (s.supportChanged b) :=
  Calm.ite (fun _ => State.computeCurrent_calm) fun _ => .refl _ _

theorem State.deliverSlipCount_calm (l : Leg) (v : Nat) : Calm k s (s.deliverSlipCount l v) :=
  State.deliverFalse_calm ..

theorem State.linkUpHanded_calm (l : Leg) : Calm k s (s.linkUpHanded l) :=
  Calm.ite (fun _ => ((Calm.setLeg l _).trans (State.sendPlain_calm _ _)).trans (State.pend_calm _ _))
    fun _ => .refl _ _

theorem State.arrivalHanded_calm (l : Leg) : Calm k s (s.arrivalHanded l) :=
  Calm.ite (fun _ => Calm.setLeg l _) fun _ => .refl _ _

theorem State.touchdownHanded_calm (l : Leg) : Calm k s (s.touchdownHanded l) := by
  unfold State.touchdownHanded
  split
  · exact Calm.setLeg l _
  · exact State.pend_calm _ _
  all_goals exact .refl _ _

theorem State.vacate_calm (i : RecordIndex) : Calm k s (s.vacate i) := by
  unfold State.vacate
  split
  · exact .refl _ _
  rename_i r hr
  split <;> rename_i e
  · exact State.freeRecord_calm _ _ (State.Held.of hr (by simp [FootRecord.Unheld, e]))
  · exact Calm.ite
      (fun _ => Calm.setSlot _ _ (by rw [hr]; exact slotCalm.held _ (by simp [FootRecord.Unheld, e]) rfl))
      fun _ => Calm.setSlot _ _
        (by rw [hr]; exact slotCalm.held _ (by simp [FootRecord.Unheld, e]) (FootRecord.suspectLoaded_origin _ _))
  all_goals exact .refl _ _

theorem State.leaveStance_calm (l : Leg) : Calm k s (s.leaveStance l) := by
  unfold State.leaveStance
  dsimp only
  split
  · exact (State.vacate_calm _).trans (Calm.setLeg l _)
  · exact Calm.setLeg l _

theorem State.liftoffUnloading_calm (l : Leg) : Calm k s (s.liftoffUnloading l) := by
  unfold State.liftoffUnloading
  have h1 := ((State.leaveStance_calm (k := k) (s := s) l).trans
    (State.supportChanged_calm (s.supports l))).trans (State.composePlace_calm l)
  exact ((Calm.ite (fun _ => h1.trans (State.seekAfterEntry_calm _)) fun _ => h1).trans
    (State.deliverSlipCount_calm _ _)).trans (State.recountIf_calm _)

theorem State.liftoffTouchdown_calm (l : Leg) : Calm k s (s.liftoffTouchdown l) := by
  unfold State.liftoffTouchdown
  refine Calm.ite (fun _ => Calm.setLeg l _) fun _ => ?_
  split
  · exact .refl _ _
  · exact (((State.modRecord_calm _ _ (FootRecord.suspectTarget_keeps _ _)).trans
      (State.enterSeeking_calm _)).trans (State.pend_calm _ _)).trans (State.seekAfterEntry_calm _)

theorem State.unloadRecord_calm (i : RecordIndex) : Calm k s (s.unloadRecord i) := by
  unfold State.unloadRecord
  split
  · exact .refl _ _
  rename_i r hr
  split <;> rename_i e
  · exact State.freeRecord_calm _ _ (State.Held.of hr (by simp [FootRecord.Unheld, e]))
  · exact Calm.setSlot _ _
      (by rw [hr]; exact slotCalm.held _ (by simp [FootRecord.Unheld, e]) (FootRecord.suspectLoaded_origin _ _))
  all_goals exact .refl _ _

theorem State.unloadLeg_calm (l : Leg) : Calm k s (s.unloadLeg l) :=
  ((Calm.setLeg l _).trans (State.enterSeeking_calm _)).trans (State.pend_calm _ _)

theorem State.liftoffStance_calm (l : Leg) : Calm k s (s.liftoffStance l) := by
  unfold State.liftoffStance
  have h1 : Calm k s (match (s.leg l).stance with
      | some h => s.unloadRecord h.index
      | none => s) := by
    split
    · exact State.unloadRecord_calm _
    · exact .refl _ _
  exact (((h1.trans (State.unloadLeg_calm l)).trans (State.haltCause_calm _)).trans
    (State.supportChanged_calm _)).trans ((State.seekAfterEntry_calm _).trans (State.deliverSlipCount_calm _ _))

theorem State.liftoffHanded_calm (l : Leg) : Calm k s (s.liftoffHanded l) := by
  unfold State.liftoffHanded
  split
  · exact State.liftoffUnloading_calm _
  · exact State.liftoffTouchdown_calm _
  · exact State.liftoffStance_calm _
  all_goals exact .refl _ _

theorem State.chargeStance_calm (l : Leg) (i : RecordIndex) : Calm k s (s.chargeStance l i) := by
  refine State.modRecord_calm _ _ ⟨fun r => ?_, fun r => ?_⟩
  · repeat' split
    all_goals rfl
  · rintro (h | h) <;> simp [h]

theorem State.chargeTarget_calm (l : Leg) (i : RecordIndex) : Calm k s (s.chargeTarget l i) := by
  refine State.modRecord_calm _ _ ⟨fun r => ?_, fun r => ?_⟩
  · split
    · exact (FootRecord.suspectTarget_keeps _ _).origin _
    · rfl
  · rintro (h | h) <;> simp [h]

theorem State.slipInStance_calm (l : Leg) : Calm k s (s.slipInStance l) := by
  unfold State.slipInStance
  split
  · exact .refl _ _
  · rename_i h _
    dsimp only
    have h1 : Calm k s (((s.chargeStance l h.index).sendPlain l .brace).pend nodeSlip (.slip l false h)) :=
      ((State.chargeStance_calm l _).trans (State.sendPlain_calm l .brace)).trans (State.pend_calm _ _)
    generalize ((s.chargeStance l h.index).sendPlain l .brace).pend nodeSlip (.slip l false h) = a at h1 ⊢
    have h2 : Calm k s ((a.setLeg l { a.leg l with slipLatched := true }).addReason .slip) :=
      (h1.trans (Calm.setLeg l _)).trans (State.addReason_calm .slip)
    generalize (a.setLeg l { a.leg l with slipLatched := true }).addReason .slip = b at h2 ⊢
    exact (Calm.ite (fun _ => h2.trans (State.haltCause_calm _)) fun _ => h2).trans (State.deliverSlipCount_calm _ _)

theorem State.slipInTouchdown_calm (l : Leg) : Calm k s (s.slipInTouchdown l) := by
  unfold State.slipInTouchdown
  split
  · exact .refl _ _
  · exact (((State.chargeTarget_calm _ _).trans (State.enterSeeking_calm _)).trans (State.pend_calm _ _)).trans
      (State.seekAfterEntry_calm _)

theorem State.slipHanded_calm (l : Leg) : Calm k s (s.slipHanded l) := by
  unfold State.slipHanded
  split
  · exact State.slipInStance_calm _
  · exact State.slipInTouchdown_calm _
  all_goals exact .refl _ _

theorem State.slipRearmHanded_calm (l : Leg) : Calm k s (s.slipRearmHanded l) :=
  (Calm.setLeg l _).trans State.slipRearmTold_calm

theorem State.freeTarget_calm (l : Leg) (i : RecordIndex) : Calm k s (s.freeTarget l i) := by
  unfold State.freeTarget
  split
  · exact .refl _ _
  · rename_i r hr
    exact Calm.ite
      (fun e => State.freeRecord_calm _ _ (State.Held.of hr (by simp [FootRecord.Unheld, e]))) fun _ => .refl _ _

theorem State.missVoid_calm (l : Leg) : Calm k s (s.missVoid l) := by
  unfold State.missVoid
  split
  · exact .refl _ _
  · exact (((State.freeTarget_calm _ _).trans (State.enterSeeking_calm _)).trans (State.pend_calm _ _)).trans
      (State.seekAfterEntry_calm _)

theorem State.confirmStance_calm (l : Leg) (h : k.adv = true) : Calm k s (s.confirmStance l) := by
  unfold State.confirmStance
  split
  · exact .refl _ _
  · exact ((((State.modRecord_calm _ _ (FootRecord.confirm_keeps _ _)).trans (Calm.setLeg l _)).trans
      (State.sendPlain_calm _ _)).trans (State.supportChanged_calm _)).trans
      ((State.confirmationTold_calm _ _ h).trans (State.deliverSlipCount_calm _ _))

theorem State.failTarget_calm (l : Leg) (i : RecordIndex) (h : s.Held i) : Calm k s (s.failTarget l i) := by
  unfold State.failTarget
  dsimp only
  have h1 : Calm k s (s.freeFailed i) := State.freeFailed_calm i h
  split
  · exact h1.trans ((State.backToStance_calm _).trans State.withdrawalTold_calm)
  · exact h1.trans ((State.enterSeeking_calm _).trans (State.seekAfterEntry_calm _))
  · exact h1.trans ((State.enterSeeking_calm _).trans (State.seekAfterEntry_calm _))
  · exact h1.trans ((State.enterSeeking_calm _).trans (State.seekAfterEntry_calm _))
  all_goals exact h1

/-- A check failure of a record that a leg holds. -/
theorem State.failRecord_calm (i : RecordIndex) (r : FootRecord) (hr : s.slot i = some r) (h : ¬r.Unheld) :
    Calm k s (s.failRecord i r) := by
  have hh : s.Held i := State.Held.of hr h
  unfold State.failRecord
  split <;> rename_i e
  · exact absurd (.inl e) h
  · exact absurd (.inr e) h
  · exact (State.failReserved_calm _ _ hh).trans (State.reportQueue_calm _ _ _)
  · exact State.failTarget_calm _ _ hh
  · exact State.failLoaded_calm _
  · exact .refl _ _

theorem State.loseStance_calm (i : RecordIndex) : Calm k s (s.loseStance i) := by
  unfold State.loseStance
  split
  · exact .refl _ _
  rename_i r hr
  split <;> rename_i e
  · exact State.freeRecord_calm _ _ (State.Held.of hr (by simp [FootRecord.Unheld, e]))
  · exact Calm.setSlot _ _
      (by rw [hr]; exact slotCalm.held _ (by simp [FootRecord.Unheld, e]) (FootRecord.suspectLoaded_origin _ _))
  all_goals exact .refl _ _

theorem State.emptyQueue_calm (l : Leg) : Calm k s (s.emptyQueue l) :=
  (Calm.foldl (fun _ _ => State.modRecord_calm _ _ (FootRecord.unreserve_keeps _ _)) _ _).trans
    (Calm.setQueue _ _ fun _ => by simp)

theorem State.loseRecords_calm (l : Leg) : Calm k s (s.loseRecords l) := by
  unfold State.loseRecords
  cases (s.leg l).stance <;> cases (s.leg l).target <;> dsimp only
  · exact State.emptyQueue_calm l
  · exact (State.modRecord_calm _ _ (FootRecord.releaseTarget_keeps _ _)).trans (State.emptyQueue_calm l)
  · exact (State.loseStance_calm _).trans (State.emptyQueue_calm l)
  · exact ((State.loseStance_calm _).trans (State.modRecord_calm _ _ (FootRecord.releaseTarget_keeps _ _))).trans
      (State.emptyQueue_calm l)

theorem State.legLost_calm (l : Leg) : Calm k s (s.legLost l) := by
  unfold State.legLost
  refine Calm.ite (fun _ => ?_) fun _ => .refl _ _
  dsimp only
  have h1 : Calm k s (((s.loseRecords l).enterLost l).supportChanged (s.supports l)) :=
    ((State.loseRecords_calm l).trans (Calm.setLeg l _)).trans (State.supportChanged_calm (s.supports l))
  have h2 : Calm k s (if (s.queue l).isEmpty then
      ((s.loseRecords l).enterLost l).supportChanged (s.supports l)
      else (((s.loseRecords l).enterLost l).supportChanged (s.supports l)).reportToSequencer l) :=
    Calm.ite (fun _ => h1) fun _ => h1.trans (State.reportToSequencer_calm l)
  exact ((((h2.trans State.slipRearmTold_calm).trans (State.pend_calm _ _)).trans (State.haltCause_calm _)).trans
    (State.deliverSlipCount_calm _ _)).trans (State.recountIf_calm _)

end Sys2Proof.Machine
end

