-- ==== Sys2Proof/Laws/Ports.lean ====
section
/-! SUPPORT. Every event of a leg port and of a leg's timers is calm in the scope of a port (Laws/Calm.lean). -/

namespace Sys2Proof.Machine

variable {k : Scope} {s : State}

theorem State.setPort_calm (l : Leg) (p : Port) (h : k.port = true) (d : (s.port l).downOk → p.downOk) :
    Calm k s (s.setPort l p) :=
  Calm.setPort l p (fun e => by simp [h] at e) d

/-- A port whose link is DOWN with nothing pending and nothing held. -/
theorem Port.downOk_of {p : Port} (h1 : p.pending = none) (h2 : p.lastKind = none) (h3 : p.echoTimer = .stopped)
    (h4 : p.slipHeld = false) : p.downOk := fun _ => ⟨h1, h2, h3, h4⟩

/-- On an UP link the law of a DOWN one asks for nothing. -/
theorem Port.downOk_up {p : Port} (h : p.linkUp = true) : p.downOk := fun e => by simp [h] at e

theorem State.rearmSlip_calm (l : Leg) (h : k.port = true) : Calm k s (s.rearmSlip l) := by
  unfold State.rearmSlip
  refine Calm.ite (fun _ => ?_) fun _ => .refl _ _
  refine (State.setPort_calm l _ h fun d e => ?_).trans (State.slipRearmHanded_calm l)
  exact ⟨(d e).1, (d e).2.1, (d e).2.2.1, rfl⟩

theorem State.setPort_setPort (l : Leg) (p q : Port) : (s.setPort l p).setPort l q = s.setPort l q := by
  cases l <;> rfl

/-- The port's part of a declaration and the re-arm of a HELD slip condition are calm together. -/
theorem State.declareDown_calm (l : Leg) (reason : LossReason) (h : k.port = true) :
    Calm k s (s.declareDown l reason) := by
  refine Calm.trans ?_ (State.legLost_calm l)
  unfold State.rearmSlip
  have e : ∀ p, (s.setPort l p).port l = p := fun p => by simp [State.setPort, State.port]
  rw [e, State.setPort_setPort]
  split
  · exact (State.setPort_calm l _ h fun _ => Port.downOk_of rfl rfl rfl rfl).trans (State.slipRearmHanded_calm l)
  · rename_i c
    exact State.setPort_calm l _ h fun _ => Port.downOk_of rfl rfl rfl (Bool.eq_false_iff.2 c)

theorem State.windowEnd_calm (l : Leg) (h : k.port = true) : Calm k s (s.windowEnd l) := by
  unfold State.windowEnd
  dsimp only
  have next : Calm k s (s.setPort l ((s.port l).nextWindow (s.paramNat 8))) :=
    State.setPort_calm l _ h fun d => d
  refine Calm.ite (fun _ => Calm.ite (fun _ => next) fun _ => State.declareDown_calm l _ h) fun _ =>
    Calm.ite (fun _ => Calm.ite (fun _ => ?_) fun _ => ?_) fun _ => ?_
  · exact (State.setPort_calm l _ h fun _ => Port.downOk_up rfl).trans (State.linkUpHanded_calm l)
  · exact State.setPort_calm l _ h fun d => d
  · exact State.setPort_calm l _ h fun d => d

theorem State.echoExpiry_calm (l : Leg) (h : k.port = true) : Calm k s (s.echoExpiry l) := by
  unfold State.echoExpiry
  refine Calm.ite (fun _ => ?_) fun _ => .refl _ _
  split
  · exact .refl _ _
  · rename_i o hp
    refine Calm.ite (fun _ => ?_) fun _ => State.declareDown_calm l _ h
    refine (State.setPort_calm l _ h fun d e => ?_).trans
      (Calm.sent (s := s.setPort l { s.port l with
        retries := (s.port l).retries + 1, echoTimer := s.timerFor 10 }) _ (List.prefix_append _ _))
    have := (d e).1
    rw [hp] at this
    cases this

theorem State.reportStore_calm (l : Leg) (r : Report) (h : k.port = true) : Calm k s (s.reportStore l r) := by
  unfold State.reportStore
  dsimp only
  refine Calm.trans (Calm.trans (Calm.trans ?_ (State.deliverFalse_calm _ _ _)) (State.deliverFalse_calm _ _ _))
    (State.deliverFalse_calm _ _ _)
  exact State.setPort_calm l _ h fun d => d

theorem State.reportFault_calm (l : Leg) (r : Report) (h : k.port = true) : Calm k s (s.reportFault l r) := by
  unfold State.reportFault
  refine Calm.ite (fun _ => .refl _ _) fun _ => Calm.ite (fun e => ?_) fun _ => ?_
  · refine Calm.trans ?_ (State.legLost_calm l)
    exact State.setPort_calm l _ h fun _ => Port.downOk_up e
  · exact State.setPort_calm l _ h fun d => d

theorem State.reportEcho_calm (l : Leg) (echo : BitVec 4) (h : k.port = true) : Calm k s (s.reportEcho l echo) := by
  unfold State.reportEcho
  dsimp only
  split
  · exact .refl _ _
  · exact Calm.ite (fun _ => State.setPort_calm l _ h fun d e => ⟨rfl, (d e).2.1, rfl, (d e).2.2.2⟩) fun _ => .refl _ _

theorem State.reportArrival_calm (l : Leg) (r : Report) (echo : BitVec 4) : Calm k s (s.reportArrival l r echo) :=
  Calm.ite (fun _ => State.arrivalHanded_calm l) fun _ => .refl _ _

theorem State.reportEdges_calm (l : Leg) (r : Report) (h : k.port = true) : Calm k s (s.reportEdges l r) := by
  unfold State.reportEdges
  dsimp only
  split
  · exact State.setPort_calm l _ h fun d => d
  · refine Calm.ite (fun _ => ?_) fun _ => .refl _ _
    refine Calm.trans (Calm.trans ?_ (State.rearmSlip_calm l h)) (State.touchdownHanded_calm l)
    exact State.setPort_calm l _ h fun d => d
  · refine Calm.ite (fun _ => ?_) fun _ => .refl _ _
    refine Calm.trans ?_ (State.liftoffHanded_calm l)
    exact State.setPort_calm l _ h fun d => d

/-- The slip test is taken on an UP link alone. -/
theorem State.reportSlip_calm (l : Leg) (r : Report) (h : k.port = true) (up : (s.port l).linkUp = true) :
    Calm k s (s.reportSlip l r) := by
  unfold State.reportSlip
  refine Calm.ite (fun _ => Calm.ite (fun _ => ?_) fun _ => ?_) fun _ => Calm.ite (fun _ => ?_) fun _ => .refl _ _
  · exact State.setPort_calm l _ h fun d => d
  · refine Calm.trans ?_ (State.slipHanded_calm l)
    exact State.setPort_calm l _ h fun _ => Port.downOk_up up
  · exact State.setPort_calm l _ h fun d => d

theorem State.onUpLink_calm (l : Leg) {f : State → State} (h : (s.port l).linkUp = true → Calm k s (f s)) :
    Calm k s (s.onUpLink l f) := Calm.ite h fun _ => .refl _ _

theorem State.goodReport_calm (l : Leg) (r : Report) (echo : BitVec 4) (h : k.port = true) :
    Calm k s (s.goodReport l r echo) := by
  unfold State.goodReport
  dsimp only
  refine Calm.trans ?_ (State.onUpLink_calm l fun up => State.reportSlip_calm l r h up)
  refine Calm.trans ?_ (State.onUpLink_calm l fun _ => State.reportEdges_calm l r h)
  refine Calm.trans ?_ (State.onUpLink_calm l fun _ => State.reportArrival_calm l r echo)
  refine Calm.trans ?_ (State.onUpLink_calm l fun _ => State.reportEcho_calm l echo h)
  exact (State.reportStore_calm l r h).trans (State.reportFault_calm l r h)

theorem State.rearmExpiry_calm (l : Leg) (h : k.port = true) : Calm k s (s.rearmExpiry l) :=
  Calm.ite (fun _ => State.rearmSlip_calm l h) fun _ => .refl _ _

theorem State.startLift_calm (l : Leg) (h : Handle) : Calm k s (s.startLift l h) :=
  ((State.takeFront_calm l h).trans (Calm.setLeg l _)).trans (State.sendPlain_calm _ _)

theorem State.liftTaken_calm (l : Leg) (h : Handle) : Calm k s (s.liftTaken l h) := by
  unfold State.liftTaken
  have h1 : Calm k s (s.startLift l h).clearLift := (State.startLift_calm l h).trans (Calm.askLift none)
  split
  · exact ((h1.trans (State.withdrawLift_calm l)).trans State.endStopping_calm).trans (State.recountIf_calm _)
  · exact ((h1.trans (State.withdrawLift_calm l)).trans State.endStopping_calm).trans (State.recountIf_calm _)
  all_goals exact h1.trans (State.reportToSequencer_calm l)

theorem State.liftRefused_calm : Calm k s s.liftRefused := by
  unfold State.liftRefused
  have h1 : Calm k s s.clearLift := Calm.askLift none
  exact Calm.ite (fun _ => (h1.trans (State.addReason_calm _)).trans State.evaluate_calm)
    fun _ => h1.trans State.endStopping_calm

theorem State.takeLift_calm (l : Leg) : Calm k s (s.takeLift l) := by
  unfold State.takeLift
  refine Calm.ite (fun _ => State.liftRefused_calm) fun _ => ?_
  split
  · exact State.liftRefused_calm
  · exact State.liftRefused_calm
  · rename_i e
    exact ((State.failReserved_calm _ _ (State.frontTest_held e)).trans State.liftRefused_calm).trans
      (State.reportToSequencer_calm l)
  · exact State.liftTaken_calm l _

theorem State.redirectTo_calm (l : Leg) (h : Handle) : Calm k s (s.redirectTo l h) := by
  have h1 : Calm k s (match (s.leg l).target with
      | some old => s.modRecord old.index (FootRecord.releaseTarget s.seq.stride l)
      | none => s) := by
    split
    · exact State.modRecord_calm _ _ (FootRecord.releaseTarget_keeps _ _)
    · exact .refl _ _
  unfold State.redirectTo
  dsimp only
  refine Calm.trans ?_ State.recount_calm
  have h2 : ∀ a : State, Calm k s a → Calm k s ((((a.takeFront l h).setLeg l
      { (a.takeFront l h).leg l with phase := .swing, target := some h, bounce := 0, descentTimer := .stopped
        }).composePlace l).reportToSequencer l) := fun a h1 =>
    (((h1.trans (State.takeFront_calm l h)).trans (Calm.setLeg l _)).trans (State.composePlace_calm l)).trans
      (State.reportToSequencer_calm l)
  exact Calm.ite (fun _ => (h2 _ h1).trans (State.seekAfterEntry_calm l)) fun _ => h2 _ h1

/-- What a step does where no command waits: nothing, or the waiting report of some leg as one event (R57, R105). -/
theorem takeWaitingReport_next (s : State) :
    (takeWaitingReport s = .next s ∧ ∀ l, s.newFronts.get l = false)
    ∨ ∃ l, s.newFronts.get l = true
        ∧ takeWaitingReport s = .next (({ s with ordersSent := [] } : State).hearNewFront l) := by
  unfold takeWaitingReport
  cases h : Leg.all.find? s.newFronts.get with
  | none =>
    refine .inl ⟨rfl, fun l => ?_⟩
    have := List.find?_eq_none.mp h l (by cases l <;> decide)
    simpa using this
  | some l => exact .inr ⟨l, List.find?_some h, rfl⟩

end Sys2Proof.Machine
end

