-- ==== Sys2Proof/Laws/Effects.lean ====
section
/-! SUPPORT. What a command's own effect can do: Mild says once which configuration each command leaves as it was, which
records stay as they are, and which laws it keeps; one lemma for each command's effect and each event. -/

namespace Sys2Proof.Machine

/-- What a command may write. -/
structure Writes where
  params : Bool := false
  friction : Bool := false
  nodes : Bool := false
  terms : Bool := false
  trips : Bool := false
  pattern : Bool := false
  pose : Bool := false
  lanes : Bool := false
  /-- a record that no leg holds -/
  unheld : Bool := false
  /-- a FREE slot -/
  fill : Bool := false
  /-- the order pointer, at a step confirmation -/
  adv : Bool := false

/-- A record keeps its origin, or it is freed and its index's generation advances by one; a FREE slot stays FREE or takes
a CANDIDATE (R2, R6, R16). -/
def slotMild (fill : Bool) (a b : Option FootRecord) (g g' : BitVec 4) : Prop :=
  match a with
  | none => g' = g ∧ (b = none ∨ (fill = true ∧ ∃ r, b = some r ∧ r.state = .candidate))
  | some r => (∃ r', b = some r' ∧ r'.origin = r.origin ∧ g' = g) ∨ (b = none ∧ g' = g + 1)

/-- What a command leaves as it was, and the laws it keeps. -/
structure Mild (w : Writes) (s t : State) : Prop where
  pending : t.pending = s.pending
  lanes : w.lanes = false → t.lanes = s.lanes
  params : w.params = false → t.params = s.params
  friction : w.friction = false → t.store.friction = s.store.friction
  nodes : w.nodes = false → ∀ n : NodeNumber,
    (t.node n).priority = (s.node n).priority ∧ (t.node n).enabled = (s.node n).enabled
  terms : w.terms = false → ∀ n : Fin 8, t.trips.terms[n].config = s.trips.terms[n].config
  trips : w.trips = false → ∀ n : Fin 4, (t.trip n).config = (s.trip n).config
  pattern : w.pattern = false → t.seq.pattern = s.seq.pattern
  pointer : w.pattern = false → w.adv = false → t.seq.pointer = s.seq.pointer
  pose : w.pose = false → t.bal.pose = s.bal.pose ∧ t.bal.freshness = s.bal.freshness
  slots : ∀ i : RecordIndex, slotMild w.fill (s.slot i) (t.slot i) (s.gen i) (t.gen i)
  unheld : w.unheld = false → ∀ i : RecordIndex, (s.slot i = none → t.slot i = none)
    ∧ ∀ r, s.slot i = some r → r.Unheld → t.slot i = some r
  line : s.attn.line = lineOf s.attn.nodes → t.attn.line = lineOf t.attn.nodes
  more : (∀ n, (s.node n).more = true → (s.node n).pending.isSome = true) →
    ∀ n, (t.node n).more = true → (t.node n).pending.isSome = true
  halt : s.seq.haltOk → t.seq.haltOk
  walk : s.seq.walkOk → t.seq.walkOk
  down : (∀ l, (s.port l).downOk) → ∀ l, (t.port l).downOk

variable {w : Writes} {k : Scope} {s t u : State}

theorem slotMild.refl (fill : Bool) (a : Option FootRecord) (g : BitVec 4) : slotMild fill a a g g := by
  cases a <;> simp [slotMild]

theorem slotMild.calm {fill : Bool} {a b c : Option FootRecord} {g g' g'' : BitVec 4} (h : slotMild fill a b g g')
    (h' : slotCalm b c g' g'') : slotMild fill a c g g'' := by
  cases a with
  | none =>
    obtain ⟨rfl, rfl | ⟨hf, r, rfl, hr⟩⟩ := h
    · exact ⟨h'.2, .inl h'.1⟩
    · obtain ⟨rfl, rfl⟩ := h'.1 (.inl hr)
      exact ⟨rfl, .inr ⟨hf, r, rfl, hr⟩⟩
  | some r =>
    rcases h with ⟨r', rfl, ho, rfl⟩ | ⟨rfl, rfl⟩
    · rcases h'.2 with ⟨r'', rfl, ho', rfl⟩ | ⟨rfl, rfl⟩
      · exact .inl ⟨r'', rfl, ho'.trans ho, rfl⟩
      · exact .inr ⟨rfl, rfl⟩
    · obtain ⟨rfl, rfl⟩ := h'
      exact .inr ⟨rfl, rfl⟩

theorem Mild.refl (w : Writes) (s : State) : Mild w s s :=
  ⟨rfl, fun _ => rfl, fun _ => rfl, fun _ => rfl, fun _ _ => ⟨rfl, rfl⟩, fun _ _ => rfl, fun _ _ => rfl, fun _ => rfl,
    fun _ _ => rfl, fun _ => ⟨rfl, rfl⟩, fun _ => .refl _ _ _, fun _ _ => ⟨id, fun _ h _ => h⟩, id, id, id, id, id⟩

/-- A cascade after a command's own effect. -/
theorem Mild.calm (h : Mild w s t) (h' : Calm k t u) (he : k.ev = false := by rfl)
    (ha : k.adv = false ∨ w.adv = true := by exact .inl rfl) : Mild w s u where
  pending := h'.pending.trans h.pending
  lanes e := h'.lanes.trans (h.lanes e)
  params e := h'.params.trans (h.params e)
  friction e := h'.store.friction.trans (h.friction e)
  nodes e n := ⟨(h'.attn.nodes n).priority.trans (h.nodes e n).1, (h'.attn.nodes n).enabled.trans (h.nodes e n).2⟩
  terms e n := (h'.trips.terms n).trans (h.terms e n)
  trips e n := (h'.trips.trips n).trans (h.trips e n)
  pattern e := h'.seq.pattern.trans (h.pattern e)
  pointer e a := (h'.seq.pointer (ha.resolve_right (by simp [a]))).trans (h.pointer e a)
  pose e := ⟨h'.bal.pose.trans (h.pose e).1, h'.bal.freshness.trans (h.pose e).2⟩
  slots i := (h.slots i).calm (h'.store.slots i)
  unheld e i := by
    have h1 := h.unheld e i
    have h2 := h'.store.slots i
    constructor
    · intro hn
      have := h1.1 hn
      change t.store.slots[i] = none at this
      rw [this] at h2
      exact h2.1
    · intro r hr hu
      have := h1.2 r hr hu
      change t.store.slots[i] = some r at this
      rw [this] at h2
      exact (h2.1 hu).1
  line e := h'.attn.line (h.line e)
  more e n m := (h'.attn.nodes n).law (h.more e n) m
  halt e := h'.seq.halt (h.halt e)
  walk e := h'.seq.walk he (h.walk e)
  down e l := h'.ports.down (h.down e) l

/-- A cascade alone. -/
theorem Mild.of (h : Calm k s t) (he : k.ev = false := by rfl) (ha : k.adv = false ∨ w.adv = true := by exact .inl rfl) :
    Mild w s t := (Mild.refl w s).calm h he ha

theorem slotMild.trans {a b c : Option FootRecord} {g g' g'' : BitVec 4} (h : slotMild false a b g g')
    (h' : slotMild false b c g' g'') : slotMild false a c g g'' := by
  cases a with
  | none =>
    obtain ⟨rfl, rfl | ⟨hf, _⟩⟩ := h
    · exact h'
    · cases hf
  | some r =>
    rcases h with ⟨r', rfl, ho, rfl⟩ | ⟨rfl, rfl⟩
    · rcases h' with ⟨r'', rfl, ho', rfl⟩ | ⟨rfl, rfl⟩
      · exact .inl ⟨r'', rfl, ho'.trans ho, rfl⟩
      · exact .inr ⟨rfl, rfl⟩
    · obtain ⟨rfl, rfl | ⟨hf, _⟩⟩ := h'
      · exact .inr ⟨rfl, rfl⟩
      · cases hf

/-- Two effects of one command that fills no slot. -/
theorem Mild.trans (h : Mild w s t) (h' : Mild w t u) (hf : w.fill = false := by rfl) : Mild w s u where
  pending := h'.pending.trans h.pending
  lanes e := (h'.lanes e).trans (h.lanes e)
  params e := (h'.params e).trans (h.params e)
  friction e := (h'.friction e).trans (h.friction e)
  nodes e n := ⟨(h'.nodes e n).1.trans (h.nodes e n).1, (h'.nodes e n).2.trans (h.nodes e n).2⟩
  terms e n := (h'.terms e n).trans (h.terms e n)
  trips e n := (h'.trips e n).trans (h.trips e n)
  pattern e := (h'.pattern e).trans (h.pattern e)
  pointer e a := (h'.pointer e a).trans (h.pointer e a)
  pose e := ⟨(h'.pose e).1.trans (h.pose e).1, (h'.pose e).2.trans (h.pose e).2⟩
  slots i := by
    have h1 := h.slots i
    have h2 := h'.slots i
    rw [hf] at h1 h2 ⊢
    exact h1.trans h2
  unheld e i := ⟨fun x => (h'.unheld e i).1 ((h.unheld e i).1 x),
    fun r hr hu => (h'.unheld e i).2 r ((h.unheld e i).2 r hr hu) hu⟩
  line e := h'.line (h.line e)
  more e := h'.more (h.more e)
  halt e := h'.halt (h.halt e)
  walk e := h'.walk (h.walk e)
  down e := h'.down (h.down e)

/-! ### One block replaced -/

theorem Mild.setSlot (i : RecordIndex) (r : Option FootRecord) (hu : w.unheld = true)
    (h : slotMild w.fill (s.slot i) r (s.gen i) (s.gen i)) : Mild w s (s.setSlot i r) :=
  { Mild.refl w s with
    unheld := fun e => by simp [hu] at e
    slots := fun j => by
      by_cases e : i = j
      · subst e
        simpa [State.setSlot, State.slot, State.gen] using h
      · have : i.val ≠ j.val := fun h => e (Fin.ext h)
        simpa [State.setSlot, State.slot, State.gen, Vector.getElem_set, this] using slotMild.refl _ _ _ }

/-- A record replaced by one of the same origin. -/
theorem Mild.setRecord (i : RecordIndex) (r r' : FootRecord) (hu : w.unheld = true) (hr : s.slot i = some r)
    (ho : r'.origin = r.origin) : Mild w s (s.setSlot i (some r')) :=
  Mild.setSlot i _ hu (by rw [hr]; exact .inl ⟨r', rfl, ho, rfl⟩)

theorem Mild.freeRecord (i : RecordIndex) (reason : RetireReason) (hu : w.unheld = true) :
    Mild w s (s.freeRecord i reason) := by
  unfold State.freeRecord
  split
  · exact .refl _ _
  · rename_i r hr
    have h1 : Mild w s ((s.setSlot i none).setGen i (s.gen i + 1)) :=
      { Mild.refl w s with
        unheld := fun e => by simp [hu] at e
        slots := fun j => by
          by_cases e : i = j
          · subst e
            have : s.store.slots[i.val] = some r := hr
            simp [State.setSlot, State.setGen, State.slot, State.gen, slotMild, this]
          · have : i.val ≠ j.val := fun h => e (Fin.ext h)
            simpa [State.setSlot, State.setGen, State.slot, State.gen, Vector.getElem_set, this]
              using slotMild.refl _ _ _ }
    dsimp only
    split
    · exact h1
    · exact h1.calm (k := .plain) (State.pend_calm _ _)

theorem Mild.freeFailed (i : RecordIndex) (hu : w.unheld = true) (hf : w.fill = false := by rfl) :
    Mild w s (s.freeFailed i) :=
  (Mild.of (k := .plain) State.setCheckFlag_calm).trans (Mild.freeRecord i .check hu) hf

/-- A check failure of any record. -/
theorem Mild.failRecord (i : RecordIndex) (r : FootRecord) (hr : s.slot i = some r) (hu : w.unheld = true)
    (hf : w.fill = false := by rfl) : Mild w s (s.failRecord i r) := by
  by_cases h : r.Unheld
  · rcases h with h | h <;> simp only [State.failRecord, h]
    · exact (Mild.freeFailed i hu hf).calm (k := .plain) State.recount_calm
    · exact Mild.freeFailed i hu hf
  · exact .of (k := .plain) (State.failRecord_calm i r hr h)

theorem Mild.setSeq (q : Sequencer) (hp : w.pattern = false → q.pattern = s.seq.pattern ∧ q.pointer = s.seq.pointer)
    (hh : s.seq.haltOk → q.haltOk) (hw : s.seq.walkOk → q.walkOk) : Mild w s (s.setSeq q) :=
  { Mild.refl w s with
    pattern := fun e => (hp e).1
    pointer := fun e _ => (hp e).2
    halt := hh
    walk := hw }

theorem Mild.setNode (n : NodeNumber) (v : Node)
    (hc : w.nodes = false → v.priority = (s.node n).priority ∧ v.enabled = (s.node n).enabled)
    (hm : ((s.node n).more = true → (s.node n).pending.isSome = true) → v.more = true → v.pending.isSome = true) :
    Mild w s (s.setNode n v) := by
  have e : ∀ m, (s.setNode n v).node m = if n = m then v else s.node m := by
    intro m
    by_cases e : n = m
    · subst e
      simp [State.setNode, State.node]
    · have : n.val ≠ m.val := fun h => e (Fin.ext h)
      simp [State.setNode, State.node, e, this]
  refine { Mild.refl w s with nodes := fun h m => ?_, line := fun _ => rfl, more := fun h m => ?_ }
  · rw [e]
    split
    · subst n
      exact hc h
    · exact ⟨rfl, rfl⟩
  · rw [e]
    split
    · exact hm (h n)
    · exact h m

/-! ### The store's commands and passes -/

theorem Mild.ifPermitted {allowed : Client → Bool} {c : Client} {body : Effect} (h : Mild w s body.2) :
    Mild w s (permitted allowed c s body).2 := by
  unfold permitted
  split
  · exact h
  · exact .refl _ _

theorem Mild.ifPermittedIdle {allowed : Client → Bool} {c : Client} {body : Effect} (h : Mild w s body.2) :
    Mild w s (permittedIdle allowed c s body).2 := by
  refine Mild.ifPermitted ?_
  split
  · exact .refl _ _
  · exact h

theorem State.named_slot {a : Word} {i : RecordIndex} {r : FootRecord} (h : s.named a = some (i, r)) :
    s.slot i = some r := by
  unfold State.named at h
  split at h
  · dsimp only at h
    split at h
    · simp only [Option.map_eq_some_iff, Prod.mk.injEq] at h
      obtain ⟨r', h, rfl, rfl⟩ := h
      exact h
    · cases h
  · cases h

theorem takeSubmit_mild (x y z classWord : Word) (c : Client) :
    Mild { unheld := true, fill := true } s (takeSubmit x y z classWord c s).2 := by
  refine Mild.ifPermittedIdle ?_
  split
  · exact .refl _ _
  · split
    · exact .refl _ _
    · rename_i i hi
      refine Mild.calm (k := .plain) (Mild.setSlot i _ rfl ?_) State.recount_calm
      have : s.slot i = none := by simpa [State.lowestFree] using List.find?_some hi
      rw [this]
      exact ⟨rfl, .inr ⟨rfl, _, rfl, rfl⟩⟩

theorem takeAmend_mild (handle mask x y z classWord : Word) (c : Client) :
    Mild { unheld := true } s (takeAmend handle mask x y z classWord c s).2 := by
  refine Mild.ifPermittedIdle ?_
  split
  · exact .refl _ _
  · split
    · exact .refl _ _
    · rename_i i r hn
      have hr := State.named_slot hn
      split
      · exact .refl _ _
      · unfold amendRecord
        split
        · unfold amendNothing
          split
          · exact Mild.of (k := .plain) (State.reportQueue_calm _ _ _)
          · exact Mild.of (k := .plain) State.recount_calm
          all_goals exact .refl _ _
        · dsimp only
          have written : ∀ (u : State) (r' : FootRecord), u.slot i = some r → r'.origin = r.origin →
              Mild { unheld := true } u (u.setSlot i (some r')) := fun u r' hu ho => Mild.setRecord i r r' rfl hu ho
          split
          · unfold amendReserved
            dsimp only [answer]
            split
            · refine Mild.calm (k := .plain) ?_ (State.reportQueue_calm _ _ _)
              exact written _ _ hr rfl
            · rename_i o _ _
              refine Mild.calm (k := .plain) ?_ State.recount_calm
              refine Mild.calm (k := .plain) ?_ (State.reportQueue_calm _ _ _)
              refine Mild.trans (t := s.dropFromQueue o i)
                (Mild.of (k := .plain) (State.dropFromQueue_calm o i)) ?_
              exact written _ _ hr rfl
          · dsimp only [answer]
            refine Mild.calm (k := .plain) ?_ State.recount_calm
            exact written _ _ hr rfl
          · split
            · dsimp only [answer]
              refine Mild.calm (k := .plain) ?_ State.recount_calm
              exact written _ _ hr rfl
            · exact written _ _ hr rfl
          · exact .refl _ _
          · exact .refl _ _

theorem takeQuery_mild (handle : Word) (c : Client) : Mild { unheld := true } s (takeQuery handle c s).2 := by
  refine Mild.ifPermittedIdle ?_
  split
  · exact .refl _ _
  · rename_i i r hn
    split
    · exact .refl _ _
    · split
      · exact .refl _ _
      · exact Mild.failRecord i r (State.named_slot hn) rfl

theorem findLoop_mild (x y radius minConfidence : Word) (n : Nat) (s : State) (b : Bool) :
    Mild { unheld := true } s (findLoop x y radius minConfidence n (s, b)).2.1 := by
  induction n generalizing s b with
  | zero => exact .refl _ _
  | succ n ih =>
    unfold findLoop
    split
    · exact .refl _ _
    · split
      · exact .refl _ _
      · split
        · exact .refl _ _
        · exact (Mild.freeFailed _ rfl).trans (ih _ _)

theorem takeFind_mild (x y radius minConfidence : Word) (c : Client) :
    Mild { unheld := true } s (takeFind x y radius minConfidence c s).2 := by
  refine Mild.ifPermittedIdle ?_
  split
  · exact .refl _ _
  · exact (findLoop_mild _ _ _ _ _ _ _).calm (k := .plain) (State.recountIf_calm _)

theorem takeRetire_mild (handle : Word) (c : Client) : Mild { unheld := true } s (takeRetire handle c s).2 := by
  refine Mild.ifPermittedIdle ?_
  split
  · exact .refl _ _
  · rename_i i r hn
    unfold retireRecord
    split
    · exact (Mild.freeRecord i _ rfl).calm (k := .plain) State.recount_calm
    · exact Mild.freeRecord i _ rfl
    · split
      · exact .refl _ _
      all_goals
        exact (Mild.trans (Mild.of (k := .plain) (State.dropFromQueue_calm _ i)) (Mild.freeRecord i _ rfl)).calm
          (k := .plain) (State.reportQueue_calm _ _ _)
    · exact .refl _ _
    · exact .refl _ _

theorem takeRestore_mild (handle x y z classWord friction : Word) (c : Client) :
    Mild {} s (takeRestore handle x y z classWord friction c s).2 := by
  refine Mild.ifPermittedIdle ?_
  split
  · exact .refl _ _
  · split
    · exact .refl _ _
    · rename_i i r hn
      split
      · exact .refl _ _
      · split
        · rename_i o e
          refine Mild.calm (k := .plain) (Mild.of (k := .plain) (Calm.setSlot i _ ?_)) State.computeCurrent_calm
          rw [State.named_slot hn]
          exact slotCalm.held _ (by simp [FootRecord.Unheld, e]) rfl
        all_goals exact .refl _ _

theorem takeRebase_mild (dx dy dz : Word) (c : Client) : Mild { pose := true } s (takeRebase dx dy dz c s).2 := by
  refine Mild.ifPermittedIdle ?_
  split
  · exact .refl _ _
  · split
    · exact .refl _ _
    · split
      · exact .refl _ _
      · have h1 : Mild { pose := true } s (s.setStore { s.store with walk := some ⟨some 0, dx, dy, dz, 0⟩ }) :=
          { Mild.refl _ s with }
        have h2 := h1.calm (k := .plain) (State.addReason_calm .rebase)
        have h3 : ∀ u b, Mild { pose := true } u (u.setBal b) := fun u b =>
          { Mild.refl _ u with pose := fun e => by cases e }
        exact h2.trans (h3 _ _)

theorem State.sweepVisit_mild : Mild { unheld := true } s s.sweepVisit := by
  unfold State.sweepVisit
  split
  · exact .refl _ _
  · rename_i i _
    dsimp only
    have h1 : Mild { unheld := true } s (s.setStore { s.store with sweep := nextIndex i }) :=
      { Mild.refl _ s with }
    split
    · exact h1
    · refine h1.trans ?_
      unfold State.sweepRecord
      split
      · split
        · exact (Mild.freeRecord i _ rfl).calm (k := .plain) State.recount_calm
        · exact .refl _ _
      · split
        · exact Mild.freeRecord i _ rfl
        · exact .refl _ _
      all_goals exact .refl _ _

theorem State.walkVisit_mild : Mild { unheld := true } s s.walkVisit := by
  unfold State.walkVisit
  split
  · exact .refl _ _
  · rename_i v _
    split
    · exact .refl _ _
    · rename_i i _
      have h1 : ∀ n, Mild { unheld := true } s (s.walkOn v i n) := fun n => { Mild.refl _ s with }
      split
      · exact h1 _
      · rename_i r hr
        unfold State.walkRecord
        dsimp only
        have hs : Mild { unheld := true } s
            ((s.walkOn v i v.retired).setSlot i (some { r with content := shiftedContent v r.content (s.gen i) })) :=
          (h1 _).trans (Mild.setRecord i r _ rfl hr rfl)
        have hf : Mild { unheld := true } s ((s.walkOn v i (v.retired + 1)).freeRecord i .outOfFrame) :=
          (h1 _).trans (Mild.freeRecord i _ rfl)
        split
        · split
          · exact hs
          · exact hf.calm (k := .plain) State.recount_calm
        · split
          · exact hs
          · exact hf
        all_goals exact hs

theorem State.seekAll_calm : Calm k s s.seekAll := Calm.foldl (fun _ l => State.seekAndReport_calm l) _ _

theorem State.completeWalk_mild (v : RebaseWalk) : Mild {} s (s.completeWalk v) := by
  have h1 : Mild {} s (s.setStore { s.store with walk := none }) := { Mild.refl _ s with }
  exact ((((h1.calm (k := .plain) (State.removeReason_calm .rebase)).calm (k := .plain)
    State.computeCurrent_calm).calm (k := .plain) State.seekAll_calm).calm (k := .plain) (State.pend_calm _ _))

theorem disturb_mild (i : RecordIndex) (content : StoredContent) :
    Mild { unheld := true } s (match s.slot i with
      | none => s
      | some r => if verifies content (s.gen i) then s else s.setSlot i (some { r with content := content })) := by
  split
  · exact .refl _ _
  · rename_i r hr
    split
    · exact .refl _ _
    · exact Mild.setRecord i r _ rfl hr rfl

/-! ### The commands of the queues and the legs -/

theorem takeReserve_mild (leg handle : Word) (c : Client) :
    Mild { unheld := true } s (takeReserve leg handle c s).2 := by
  refine Mild.ifPermittedIdle ?_
  split
  · exact .refl _ _
  · split
    · exact .refl _ _
    · rename_i i r hn
      have hr := State.named_slot hn
      unfold reserveChecks
      split
      · exact .refl _ _
      split
      · exact .refl _ _
      rename_i hlen
      split
      · exact .refl _ _
      split
      · exact .refl _ _
      split
      · exact Mild.failRecord i r hr rfl
      split
      · exact .refl _ _
      · refine Mild.calm (k := .plain) (Mild.calm (k := .plain) ?_ (State.reportQueue_calm _ _ _)) State.recount_calm
        refine (Mild.setRecord i r _ rfl hr ?_).calm (k := .plain) (Calm.setQueue _ _ fun _ => ?_)
        · unfold FootRecord.reserveFor
          split <;> rfl
        · simp only [List.length_append, List.length_singleton]
          omega

theorem takeCancel_mild (handle : Word) (c : Client) : Mild {} s (takeCancel handle c s).2 := by
  refine Mild.ifPermittedIdle ?_
  split
  · exact .refl _ _
  · split
    · exact .of (k := .plain) ((((State.dropFromQueue_calm _ _).trans
        (State.modRecord_calm _ _ (FootRecord.unreserve_keeps _ _))).trans (State.reportQueue_calm _ _ _)).trans
        State.recount_calm)
    all_goals exact .refl _ _

theorem takeQueue_mild (leg : Word) (c : Client) : Mild {} s (takeQueue leg c s).2 := by
  refine Mild.ifPermitted ?_
  split <;> exact .refl _ _

theorem takeAdopt_mild (leg handle : Word) (c : Client) : Mild { unheld := true } s (takeAdopt leg handle c s).2 := by
  refine Mild.ifPermittedIdle ?_
  split
  · exact .refl _ _
  · rename_i l _
    split
    · exact .refl _ _
    · rename_i i r hn
      have hr := State.named_slot hn
      unfold adoptChecks
      split
      · exact .refl _ _
      split
      · exact .refl _ _
      split
      · exact .refl _ _
      split
      · exact .refl _ _
      split
      · exact Mild.failRecord i r hr rfl
      split
      · exact .refl _ _
      · unfold State.adoptRecord
        dsimp only
        dsimp only [answer]
        refine Mild.calm (k := .plain) ?_ State.recount_calm
        refine Mild.calm (k := .plain) ?_ (State.deliverSlipCount_calm _ _)
        refine Mild.calm (k := .plain) ?_ (State.supportChanged_calm _)
        refine Mild.calm (k := ⟨false, false, true⟩) ?_ (State.setPort_calm l _ rfl fun d => d)
        refine Mild.calm (k := .plain) ?_ (Calm.setLeg l _)
        refine Mild.setRecord i r _ rfl hr ?_
        unfold FootRecord.adoptFor
        split <;> rfl

theorem takeRedirect_mild (leg : Word) (c : Client) : Mild {} s (takeRedirect leg c s).2 := by
  refine Mild.ifPermittedIdle ?_
  split
  · exact .refl _ _
  · unfold redirectChecks
    split
    · exact .refl _ _
    · split
      · exact .refl _ _
      · exact .refl _ _
      · rename_i e
        exact .of (k := .plain) ((State.failReserved_calm _ _ (State.frontTest_held e)).trans
          (State.reportQueue_calm _ _ _))
      · exact .of (k := .plain) (State.redirectTo_calm _ _)

theorem takeLegstate_mild (leg : Word) (c : Client) : Mild {} s (takeLegstate leg c s).2 := by
  refine Mild.ifPermitted ?_
  split <;> exact .refl _ _

theorem takeRelink_mild (leg : Word) (c : Client) : Mild {} s (takeRelink leg c s).2 := by
  refine Mild.ifPermitted ?_
  split
  · exact .refl _ _
  · refine Mild.calm (k := ⟨false, false, true⟩) (Mild.of (k := ⟨false, false, true⟩) ?_)
      (State.declareDown_calm _ _ rfl)
    exact State.setPort_calm _ _ rfl fun d => d

/-! ### The gait sequencer's commands -/

theorem gaitPermitted_mild {c : Client} {body : Effect} (h : Mild w s body.2) : Mild w s (gaitPermitted c s body).2 := by
  unfold gaitPermitted
  split
  · exact h
  · exact .refl _ _

theorem standEffect_mild : Mild {} s (standEffect s).2 := by
  have leave : ∀ g, g = .standing ∨ g = .stopping → s.seq.gait ≠ .halted → Mild {} s (s.leaveTo g) :=
    fun g hg h => .of (k := .plain) (State.leaveTo_calm g hg h)
  have now : s.seq.gait ≠ .halted → Mild {} s s.standNow := fun h =>
    ((leave .standing (.inl rfl) h).calm (k := .plain) (Calm.foldl (fun _ l => State.withdrawLift_calm l) _ _)).calm
      (k := .plain) (State.recountIf_calm _)
  unfold standEffect
  split <;> rename_i e
  · split
    · exact leave _ (.inl rfl) (by simp [e])
    · exact .refl _ _
  · split
    · exact leave _ (.inr rfl) (by simp [e])
    · exact now (by simp [e])
  · split
    · exact leave _ (.inr rfl) (by simp [e])
    · exact now (by simp [e])
  all_goals exact .refl _ _

theorem walkEffect_mild : Mild {} s (walkEffect s).2 := by
  unfold walkEffect
  split <;> rename_i e
  · split
    · unfold State.startWalking
      dsimp only
      refine Mild.calm (k := .plain) ?_ State.evaluate_calm
      have h1 : Calm ⟨false, true, false⟩ s (s.putReason .pause false) := State.putReason_calm _ _ rfl
      refine Mild.of (k := .plain) ?_
      refine Calm.settled (k := .plain) (Calm.trans (Calm.trans h1 ?_) State.settleGait_calm) fun _ =>
        State.settleGait_walkOk _
      refine Calm.setSeq _ ⟨rfl, fun _ => rfl, fun _ => rfl, ?_, fun h => by simp at h, ?_⟩
      · have : (s.putReason .pause false).seq.gait = .standing := e
        intro h
        simpa [Sequencer.haltOk, this] using h
      · have : (s.putReason .pause false).seq.gait = .standing := e
        simp [this]
    · exact .refl _ _
  · exact .of (k := .plain) (State.removeReason_calm _)
  all_goals exact .refl _ _

theorem pauseEffect_mild : Mild {} s (pauseEffect s).2 := by
  unfold pauseEffect
  split
  · exact .of (k := .plain) (State.addReason_calm _)
  · exact .of (k := .plain) (State.addReason_calm _)
  all_goals exact .refl _ _

theorem offEffect_mild : Mild {} s (offEffect s).2 := by
  have off : Mild {} s s.enterOff := Mild.setSeq _ (fun _ => ⟨rfl, rfl⟩) (fun _ => by simp [Sequencer.haltOk])
    fun _ => by simp [Sequencer.walkOk]
  unfold offEffect
  split
  · split
    · exact .refl _ _
    · exact off
  · split
    · exact .refl _ _
    · exact off
  all_goals exact .refl _ _

theorem haltEffect_mild : Mild {} s (haltEffect s).2 := .of (k := .plain) (State.haltCause_calm _)

theorem patternEffect_mild (p : Pattern) : Mild { pattern := true } s (patternEffect p s).2 := by
  have h : Mild { pattern := true } s (s.setSeq { s.seq with pattern := p, pointer := p.first }) :=
    Mild.setSeq _ (fun e => by cases e) id id
  unfold patternEffect
  split
  · exact h
  · exact h
  all_goals exact .refl _ _

theorem takeResume_mild (c : Client) : Mild {} s (takeResume c s).2 := by
  unfold takeResume
  split
  · exact .refl _ _
  split
  · exact .refl _ _
  split
  · exact .refl _ _
  split
  · exact .refl _ _
  split
  · exact .refl _ _
  · exact Mild.setSeq _ (fun _ => ⟨rfl, rfl⟩) (fun _ => by simp [Sequencer.haltOk]) fun _ => by simp [Sequencer.walkOk]

/-! ### The monitor's, the trip unit's and the attention unit's commands -/

theorem State.acceptPose_mild (x y pitch roll : Word) : Mild { pose := true } s (s.acceptPose x y pitch roll) := by
  have h1 : Mild { pose := true } s (s.holdPose x y pitch roll) :=
    { Mild.refl _ s with pose := fun e => by cases e }
  exact (((h1.calm (k := .plain) State.computeCurrent_calm).calm (k := .plain) (State.deliverFalse_calm _ _ _)).calm
    (k := .plain) (State.deliverFalse_calm _ _ _)).calm (k := .plain) State.evaluateIfWalking_calm

theorem takePose_mild (x y pitch roll : Word) (c : Client) :
    Mild { pose := true } s (takePose x y pitch roll c s).2 := by
  refine Mild.ifPermittedIdle ?_
  split
  · exact .refl _ _
  · exact State.acceptPose_mild _ _ _ _

theorem State.poseExpiry_mild : Mild { pose := true } s s.poseExpiry := by
  have h1 : Mild { pose := true } s (s.setBal { s.bal with freshness := .stale, poseTimer := .stopped }) :=
    { Mild.refl _ s with pose := fun e => by cases e }
  exact h1.calm (k := .plain) State.evaluateIfWalking_calm

theorem takeMargin_mild (c : Client) : Mild {} s (takeMargin c s).2 := Mild.ifPermittedIdle (.refl _ _)

theorem State.configureTerm_mild (n : Fin 8) (v : WatchTerm) : Mild { terms := true } s (s.configureTerm n v) := by
  have h1 : ∀ u : TripUnit, u.trips = s.trips.trips → Mild { terms := true } s (s.setTrips u) := fun u hu =>
    { Mild.refl _ s with
      terms := fun e => by cases e
      trips := fun _ m => by
        change (u.trips[m]).config = (s.trips.trips[m]).config
        rw [hu] }
  have h2 : ∀ u : State, Mild { terms := true } s u → Mild { terms := true } s (s.recountOverflow u) := by
    intro u hu
    unfold State.recountOverflow
    split
    · exact hu.calm (k := .plain) (State.deliverOnly_calm _ _ _ _ (by simp))
    · exact hu
  unfold State.configureTerm
  refine h2 _ (Mild.calm (k := .plain) ?_ (State.testTrips_calm false _ _ (by simp)))
  exact h1 _ rfl

theorem takeTerm_mild (number enable source leg relation threshold : Word) (c : Client) :
    Mild { terms := true } s (takeTerm number enable source leg relation threshold c s).2 := by
  refine Mild.ifPermitted ?_
  split
  · exact .refl _ _
  · exact State.configureTerm_mild _ _

theorem State.tripReport_calm : Calm k s s.tripReport :=
  Calm.ite (fun _ => .refl _ _) fun _ => State.removeReason_calm _

theorem configureEffect_mild (n : Fin 4) (mode action terms window : Word) :
    Mild { trips := true } s (configureEffect n mode action terms window s).2 := by
  unfold configureEffect
  split
  · exact .refl _ _
  · refine Mild.calm (k := .plain) ?_ State.tripReport_calm
    exact { Mild.refl _ s with trips := fun e => by cases e }

theorem State.armTrip_calm (n : Fin 4) : Calm k s (s.armTrip n) := by
  unfold State.armTrip
  dsimp only
  split
  · have h : Calm k s (s.setTrip n { s.trip n with state := .armed, timer := .stopped }) :=
      State.setTrip_calm n _ rfl
    exact Calm.ite (fun _ => h.trans (State.fireTrip_calm false n (by simp))) fun _ => h
  · have h : Calm k s (s.setTrip n { s.trip n with state := .armed, timer := .stopped }) :=
      State.setTrip_calm n _ rfl
    exact Calm.ite (fun _ => h.trans (State.fireTrip_calm false n (by simp))) fun _ => h
  · have h : Calm k s
        (s.setTrip n { s.trip n with state := .primed, timer := .running (s.trip n).window }) :=
      State.setTrip_calm n _ rfl
    exact Calm.ite (fun _ => Calm.ite (fun _ => h.trans (State.fireTrip_calm false n (by simp))) fun _ => h)
      fun _ => State.setTrip_calm n _ rfl

theorem armEffect_mild (n : Fin 4) : Mild {} s (armEffect n s).2 := by
  unfold armEffect
  have h : Mild {} s (s.recountOverflow (s.armTrip n)).tripReport :=
    .of (k := .plain) ((State.recountOverflow_calm _ (State.armTrip_calm n)).trans State.tripReport_calm)
  split
  · exact h
  · exact h
  all_goals exact .of (k := .plain) State.tripReport_calm

theorem disarmEffect_mild (n : Fin 4) : Mild {} s (disarmEffect n s).2 :=
  .of (k := .plain) (Calm.trans (t := s.setTrip n { s.trip n with state := .disarmed, timer := .stopped })
    (State.setTrip_calm n _ rfl) State.tripReport_calm)

theorem takeTripstate_mild (c : Client) : Mild {} s (takeTripstate c s).2 := Mild.ifPermitted (.refl _ _)

theorem Mild.clearNode (n : NodeNumber) : Mild w s (s.clearNode n (s.node n)) := by
  unfold State.clearNode
  split
  · exact Mild.setNode n _ (fun _ => ⟨rfl, rfl⟩) fun _ h => by cases h
  · exact Mild.setNode n _ (fun _ => ⟨rfl, rfl⟩) fun _ h => by cases h

theorem State.attend_mild (n : NodeNumber) (priority : BitVec 4) (enable set clear : Bool) :
    Mild { nodes := true } s (s.attend n priority enable set clear) := by
  unfold State.attend
  dsimp only
  split
  · refine Mild.setNode n _ (fun e => by cases e) fun h => ?_
    unfold Node.pend
    split <;> simp_all
  · split
    · unfold State.clearNode
      split
      · exact Mild.setNode n _ (fun e => by cases e) fun _ h => by cases h
      · exact Mild.setNode n _ (fun e => by cases e) fun _ h => by cases h
    · exact Mild.setNode n _ (fun e => by cases e) fun h => h

theorem takeAttention_mild (node priority flags : Word) (c : Client) :
    Mild { nodes := true } s (takeAttention node priority flags c s).2 := by
  refine Mild.ifPermitted ?_
  split
  · exact State.attend_mild _ _ _ _ _
  · exact .refl _ _

theorem takeVector_mild (c : Client) : Mild {} s (takeVector c s).2 := by
  refine Mild.ifPermitted ?_
  split
  · exact Mild.clearNode _
  · exact .refl _ _

theorem takeCondition_mild (c : Client) : Mild {} s (takeCondition c s).2 := Mild.ifPermitted (.refl _ _)

theorem takeClearcond_mild (c : Client) : Mild {} s (takeClearcond c s).2 :=
  Mild.ifPermitted { Mild.refl _ s with }

/-! ### Parameters, and the lane interface's commands -/

theorem takeSetparam_mild (parameter value : Word) (c : Client) :
    Mild { params := true } s (takeSetparam parameter value c s).2 := by
  refine Mild.ifPermitted ?_
  split
  · exact .refl _ _
  · split
    · exact .refl _ _
    · refine Mild.calm (k := .plain) (Mild.calm (k := .plain) (Mild.calm (k := .plain) ?_
        State.evaluateIfWalking_calm) State.seekAll_calm) (State.recountIf_calm _)
      exact { Mild.refl _ s with params := fun e => by cases e }

theorem takeGetparam_mild (parameter : Word) (c : Client) : Mild {} s (takeGetparam parameter c s).2 := by
  refine Mild.ifPermitted ?_
  split <;> exact .refl _ _

theorem takeFriction_mild (surfaceClass coefficient derate : Word) (c : Client) :
    Mild { friction := true } s (takeFriction surfaceClass coefficient derate c s).2 := by
  refine Mild.ifPermitted ?_
  split
  · exact .refl _ _
  · split
    · exact .refl _ _
    · refine Mild.calm (k := .plain) (Mild.calm (k := .plain) ?_ State.evaluateIfWalking_calm) State.seekAll_calm
      exact { Mild.refl _ s with friction := fun e => by cases e }

theorem takeGetfriction_mild (surfaceClass : Word) (c : Client) : Mild {} s (takeGetfriction surfaceClass c s).2 := by
  refine Mild.ifPermitted ?_
  split <;> exact .refl _ _

theorem takeStatus_mild (c : Client) : Mild {} s (takeStatus c s).2 := Mild.ifPermitted (.refl _ _)

theorem takeLastcmd_mild (c : Client) : Mild {} s (takeLastcmd c s).2 := Mild.ifPermitted (.refl _ _)

theorem takeLane_mild (arrival : Lane) (lane operation : Word) (c : Client) :
    Mild { lanes := true } s (takeLane arrival lane operation c s).2 := by
  refine Mild.ifPermitted ?_
  split
  · split
    · exact .refl _ _
    · split
      · exact .refl _ _
      · exact { Mild.refl _ s with lanes := fun e => by cases e }
  · exact .refl _ _

theorem takeResetCommand_mild (c : Client) : Mild {} s (takeResetCommand c s).2 := Mild.ifPermitted (.refl _ _)

end Sys2Proof.Machine
end

