-- ==== Sys2Proof/Laws/Lane.lean ====
section
/-! SUPPORT. What the arrival of a frame does, said once for each way it can go (R174, R176, R179, R180, R183). -/

namespace Sys2Proof.Machine

variable {s : State} {h : FrameHead} {code : BitVec 6} {count : BitVec 4} {data : List Word}
  {effect : Client → State → Effect}

theorem State.arrive_sending (hs : s.sendingOn h.lane = true) : s.arrive h code count data effect = s := by
  simp [State.arrive, hs]

theorem State.arrive_elsewhere (hs : s.sendingOn h.lane = false) (ha : s.addressed h = false) :
    s.arrive h code count data effect = s := by
  simp [State.arrive, hs, ha]

theorem State.arrive_reset {r : Response} (hs : s.sendingOn h.lane = false) (ha : s.addressed h = true)
    (hf : s.lanes.inFlight = some r) (hr : r.thenReset = true) :
    s.arrive h code count data effect = s.takeReset s.lanes.straps := by
  obtain ⟨l, w, b⟩ := r
  cases hr
  simp [State.arrive, hs, ha, hf]

theorem State.arrive_cut (hs : s.sendingOn h.lane = false) (ha : s.addressed h = true)
    (hf : ∀ r, s.lanes.inFlight = some r → r.thenReset = false) :
    s.arrive h code count data effect =
      (let cut := s.setLanes { s.lanes with inFlight := none }
       match clientOf h.client with
       | none => cut.noteMalformed
       | some c =>
         if malformedForm h code count data then cut.noteMalformed else cut.takeCommand h code count (effect c)) := by
  cases hfl : s.lanes.inFlight with
  | none =>
    simp only [State.arrive, hs, ha, hfl]
    rfl
  | some r =>
    obtain ⟨l, w, b⟩ := r
    have := hf _ hfl
    simp only at this
    subst this
    simp only [State.arrive, hs, ha, hfl]
    rfl

/-- A valid frame of a client is taken as its command. -/
theorem State.arrive_valid {c : Client} (hs : s.sendingOn h.lane = false) (ha : s.addressed h = true)
    (hf : ∀ r, s.lanes.inFlight = some r → r.thenReset = false) (hc : clientOf h.client = some c)
    (hm : malformedForm h code count data = false) :
    s.arrive h code count data effect =
      (s.setLanes { s.lanes with inFlight := none }).takeCommand h code count (effect c) := by
  rw [State.arrive_cut hs ha hf]
  simp [hc, hm]

/-- The event of a client's valid frame for this station: the lane interface's part, the owner's effect, the response. -/
theorem frameEvent_valid {c : Client} (hs : s.sendingOn h.lane = false) (ha : s.addressed h = true)
    (hf : ∀ r, s.lanes.inFlight = some r → r.thenReset = false) (hc : clientOf h.client = some c)
    (hm : malformedForm h code (BitVec.ofNat 4 data.length) data = false) :
    frameEvent s h code data effect =
      .next ((({ s with ordersSent := [] } : State).setLanes { s.lanes with inFlight := none }).takeCommand h code
        (BitVec.ofNat 4 data.length) (effect c)) := by
  show Host.Outcome.next _ = _
  congr 1
  exact State.arrive_valid (s := { s with ordersSent := [] }) hs ha hf hc hm

end Sys2Proof.Machine
end

