-- ==== Sys2Proof/Laws/Margin.lean ====
section
/-! SUPPORT. What the integer roots of the margin arithmetic are (R140 step 3). -/

namespace Sys2Proof.Machine

/-- One binary place keeps the bounds of a partial root. -/
theorem rootBit_bounds {q r k : Nat} (lo : r * r ≤ q) (hi : q < (r + 2 ^ (k + 1)) * (r + 2 ^ (k + 1))) :
    rootBit q r k * rootBit q r k ≤ q ∧ q < (rootBit q r k + 2 ^ k) * (rootBit q r k + 2 ^ k) := by
  unfold rootBit
  split
  · rename_i h
    refine ⟨h, ?_⟩
    have : r + 2 ^ k + 2 ^ k = r + 2 ^ (k + 1) := by rw [pow_succ]; omega
    rw [this]
    exact hi
  · rename_i h
    exact ⟨lo, not_le.1 h⟩

/-- The places below n, the highest first, take a partial root to the whole one. -/
theorem rootBits_bounds (q n : Nat) : ∀ r : Nat, r * r ≤ q → q < (r + 2 ^ n) * (r + 2 ^ n) →
    ((List.range n).reverse.foldl (rootBit q) r) * ((List.range n).reverse.foldl (rootBit q) r) ≤ q
      ∧ q < ((List.range n).reverse.foldl (rootBit q) r + 1) * ((List.range n).reverse.foldl (rootBit q) r + 1) := by
  induction n with
  | zero => exact fun r lo hi => ⟨lo, hi⟩
  | succ n ih =>
    intro r lo hi
    have h := rootBit_bounds lo hi
    rw [List.range_succ, List.reverse_append]
    exact ih (rootBit q r n) h.1 h.2

/-- The lower root is the greatest integer whose square is at most q. -/
theorem rootFloor_bounds {q : Nat} (h : q < 2 ^ 36) :
    rootFloor q * rootFloor q ≤ q ∧ q < (rootFloor q + 1) * (rootFloor q + 1) :=
  rootBits_bounds q 18 0 (Nat.zero_le _) (by simpa using h)

/-- The upper root is the least integer whose square is at least q. -/
theorem rootCeil_bounds {q : Nat} (h : q < 2 ^ 36) (hq : 0 < q) :
    q ≤ rootCeil q * rootCeil q ∧ (rootCeil q - 1) * (rootCeil q - 1) < q := by
  have hb := rootFloor_bounds h
  unfold rootCeil
  split
  · rename_i e
    refine ⟨e.ge, ?_⟩
    have : 0 < rootFloor q := Nat.pos_of_ne_zero fun z => by rw [z] at e; omega
    calc (rootFloor q - 1) * (rootFloor q - 1) < rootFloor q * rootFloor q := by
          exact Nat.mul_self_lt_mul_self (by omega)
      _ = q := e
  · rename_i e
    exact ⟨hb.2.le, by simpa using lt_of_le_of_ne hb.1 e⟩

end Sys2Proof.Machine
end

