-- ==== Sys2Proof/Laws/Words.lean ====
section
/-! SUPPORT. The number that a word made of fields holds: the fields' numbers, each at its place. -/

namespace Sys2Proof.Machine

/-- The number of two bit fields side by side. -/
theorem toNat_append_sum {m n : Nat} (x : BitVec m) (y : BitVec n) : (x ++ y).toNat = x.toNat * 2 ^ n + y.toNat := by
  rw [BitVec.toNat_append, ← Nat.shiftLeft_add_eq_or_of_lt y.isLt, Nat.shiftLeft_eq]

/-- The number of a one-bit field. -/
@[simp] theorem bit_toNat (b : Bool) : (bit b).toNat = b.toNat := by cases b <;> rfl

end Sys2Proof.Machine
end

