-- ==== Sys2Proof/Tests/Slice0.lean ====
section
/-! SUPPORT. Tests of the model: ill-formed commands that the well-formedness check refuses, single steps on small states,
and, for every statement with hypotheses, states and operands that meet them. -/

namespace Sys2Proof.Tests

open Machine Claims

set_option Elab.async false

/-! ### Small states -/

/-- The head of a frame of a client on lane A to station 6, the address of the board. -/
def head : Client → FrameHead
  | .perception => ⟨.a, 6, 1⟩
  | .planner => ⟨.a, 6, 2⟩
  | .supervisor => ⟨.a, 6, 3⟩

/-- A broadcast head. -/
def everyone : FrameHead := ⟨.a, 15, 2⟩

/-- The state that a command or event leaves. -/
def run (i : Instr) (s : State) : State :=
  match exec i s with
  | .next t => t
  | .fault _ => s
  | .refused _ => s

/-- The state that a step leaves. -/
def stepped (s : State) : State :=
  match step s with
  | .next t => t
  | .fault _ => s
  | .refused _ => s

/-- The answer words of the response in flight: result word, answer words, without status and check word. -/
def reply (s : State) : List Word :=
  match s.lanes.inFlight with
  | some r => r.words.tail.dropLast
  | none => []

/-- A DUSTED_GRATING record of slope grade 2 and confidence 9 with generation 0 (12.1). -/
def grating (st : RecordState) (x y z : Word) : FootRecord :=
  ⟨st, freshContent x y z 0x2209 90 0, .perception, 0, 0⟩

/-- Puts a record of generation 0 at an index. -/
def place (i : RecordIndex) (r : FootRecord) (s : State) : State := s.setSlot i (some r)

/-- The machine on the stair of 12.1: each leg in STANCE on the record of its number, index 4 RESERVED for LH, 5 a CANDIDATE,
6 a SUSPECT, links UP, a pose held. -/
def stair (g : Gait) : State :=
  let s := State.reset
  let stand (i : RecordIndex) : LegState := { LegState.reset with phase := .stance, stance := some ⟨i, 0⟩ }
  let port : Port := { Port.reset with linkUp := true, arming := .forLiftoff, report := ⟨190, 20, false, false, 0⟩ }
  let t := { s with
    legs := ⟨stand 0, stand 1, stand 2, stand 3⟩
    ports := .const port
    queues := ⟨[], [], [⟨4, 0⟩], []⟩
    seq := { s.seq with gait := g }
    bal := { s.bal with pose := ⟨1110, 90, 0, 0⟩, freshness := .fresh, poseTimer := .running 100,
                        current := ⟨96, .inside⟩, currentLegs := .const true } }
  place 0 (grating (.loaded .lf false) 1200 320 360) <| place 1 (grating (.loaded .rf false) 1210 (-30) 360) <|
    place 2 (grating (.loaded .lh false) 900 330 180) <| place 3 (grating (.loaded .rh false) 900 (-40) 180) <|
    place 4 (grating (.reserved .lh) 1050 330 180) <| place 5 (grating .candidate 1350 340 360) <|
    place 6 (grating .suspect 1340 300 360) t

/-- LH is in this phase with index 4 its target, and its stance record is 2 while it is UNLOADING. -/
def stepping (p : Phase) (g : Gait) : State :=
  let s := stair g
  let lh : LegState :=
    { LegState.reset with
      phase := p
      target := some ⟨4, 0⟩
      stance := if p = .unloading then some ⟨2, 0⟩ else none
      stepFlag := true
      swingTimer := .running 1500
      descentTimer := if p = .descent then .running 400 else .stopped
      settleTimer := if p = .touchdown then .running 60 else .stopped }
  let t := place 4 (grating (.target .lh) 1050 330 180) ((s.setQueue .lh []).setLeg .lh lh)
  if p = .unloading then t else place 2 (grating .candidate 900 330 180) t

/-! ### The check function and the margins of 7.5 -/

theorem test_checkCode :
    checkCode [] = 0xFFFF ∧ checkCode [0] = 0x280A ∧ checkCode [0xFFFF] = 0 ∧ checkCode [0x1234, 0xABCD] = 0xEF7A := by
  decide +kernel

theorem test_currentMargin_of_7_5 :
    marginOf (some ⟨1060, 150⟩) [⟨1200, 320⟩, ⟨1210, -30⟩, ⟨900, 330⟩, ⟨900, -40⟩] = ⟨144, .inside⟩ := by decide

theorem test_liftMargin_of_7_5 :
    marginOf (some ⟨1060, 150⟩) [⟨1200, 320⟩, ⟨1210, -30⟩, ⟨900, -40⟩] = ⟨1, .inside⟩
      ∧ marginOf (some ⟨1110, 90⟩) [⟨1200, 320⟩, ⟨1210, -30⟩, ⟨900, -40⟩] = ⟨78, .inside⟩ := by decide

theorem test_stair_margin : ((stair .walking).marginWithout none) = ⟨96, .inside⟩ := by decide

/-! ### Ill-formed commands are refused by the check -/

theorem test_wellFormed : Instr.wellFormed (.submit (head .planner) 1 2 3 0x2209) = true
    ∧ Instr.wellFormed (.pose everyone 0 0 0 0) = true ∧ Instr.wellFormed (.gaitHalt everyone) = true
    ∧ Instr.wellFormed (.gaitReport (head .planner) 7) = true
    ∧ Instr.wellFormed (.tripConfigure (head .supervisor) 0 3 0 0 0 0) = true
    ∧ Instr.wellFormed (.laneShut (head .supervisor) 0 2) = true ∧ Instr.wellFormed .lift = true := by decide

theorem test_illFormed_client_field : Instr.wellFormed (.status ⟨.a, 6, 0⟩) = false := by decide

theorem test_illFormed_broadcast : Instr.wellFormed (.gaitOff everyone) = false
    ∧ Instr.wellFormed (.margin everyone) = false := by decide

theorem test_illFormed_gait_mode : Instr.wellFormed (.gaitReport (head .planner) 6) = false := by decide

theorem test_illFormed_trip_operation : Instr.wellFormed (.tripConfigure (head .supervisor) 0 1 0 0 0 0) = false
    ∧ Instr.wellFormed (.tripConfigure (head .supervisor) 0 2 0 0 0 0) = false := by decide

theorem test_illFormed_lane_operation : Instr.wellFormed (.laneShut (head .supervisor) 1 1) = false := by decide

theorem test_illFormed_damaged_frame_with_good_check :
    Instr.wellFormed (.commandFrameCheckFailure .a 0x69C0 [] (checkCode [0x69C0])) = false := by decide +kernel

theorem test_illFormed_other_station :
    Instr.wellFormed (.frameForOtherStation .a 0x59C0 [] (checkCode [0x59C0] + 1)) = false
    ∧ Instr.wellFormed (.frameForOtherStation .a 0xF9C0 [] (checkCode [0xF9C0])) = false := by decide +kernel

theorem test_illFormed_malformed_frame :
    Instr.wellFormed (.malformedFrame .a 0x69C0 [] (checkCode [0x69C0])) = false
    ∧ Instr.wellFormed (.malformedFrame .a 0x61C0 [] (checkCode [0x61C0] + 1)) = false := by decide +kernel

/-! ### Single steps -/

theorem test_step_takes_the_front :
    ∃ t, step { stair .walking with pending := [.gaitPause (head .planner), .lift] } = .next t
      ∧ t.pending = [.lift] ∧ t.seq.gait = .holding := ⟨_, rfl, by decide, by decide⟩

theorem test_submit_takes_index_7 :
    (run (.submit (head .perception) 5 6 7 0x2209) (stair .walking)).slot 7 ≠ none
      ∧ reply (run (.submit (head .perception) 5 6 7 0x2209) (stair .walking)) = [0x0100, 0x0070] := by decide +kernel

theorem test_find_nearest : reply (run (.find (head .planner) 1345 335 100 4) (stair .walking)) = [0x0400, 0x0050, 5] := by
  decide +kernel

theorem test_reserve_too_close :
    reply (run (.reserve (head .planner) 1 0x0050) (stair .off)) = [0x0800]
      ∧ reply (run (.reserve (head .planner) 4 0x0050) (stair .off)) = [0x0808] := by decide +kernel

theorem test_pause_by_perception :
    (reply (run (.gaitPause (head .perception)) (stair .walking))).head? = some 0x1002
      ∧ (run (.gaitPause (head .perception)) (stair .walking)).seq = (stair .walking).seq := by
  decide +kernel

/-- The stride of 12.2: the lift, the liftoff with its PLACE, and the confirmation. -/
theorem test_lift_of_12_2 :
    let t := run .lift { stair .walking with seq := { (stair .walking).seq with liftPending := some .lh } }
    t.leg .lh = { (stair .walking).leg .lh with
        phase := .unloading, target := some ⟨4, 0⟩, stepFlag := true, swingTimer := .running 1500 }
      ∧ t.queue .lh = [] ∧ t.ordersSent = [(.lh, ⟨0, .lift, 0, 0, 0⟩)] := by decide +kernel

theorem test_liftoff_of_12_2 :
    let t := run (.contactReport .lh 0 20 0 (checkCode [0, 20, 0])) (stepping .unloading .walking)
    (t.leg .lh).phase = .swing ∧ t.ordersSent = [(.lh, ⟨0, .place, -60, 240, 180⟩)]
      ∧ (t.slot 2).map (fun r => (r.state, r.content.confidence)) = some (.candidate, 11)
      ∧ t.bal.current = ⟨78, .inside⟩ := by decide +kernel

theorem test_confirmation_of_12_2 :
    let t := run (.settleTimerExpiry .lh) (stepping .touchdown .walking)
    (t.leg .lh).phase = .stance ∧ (t.leg .lh).stance = some ⟨4, 0⟩ ∧ t.bal.current = ⟨96, .inside⟩
      ∧ t.seq.pointer = .lf := by decide +kernel

/-- The record's check code is wrong. -/
def damaged (r : FootRecord) : FootRecord := { r with content := { r.content with check := r.content.check + 1 } }

/-- LH is SEEKING, with this record at the front of its queue, index 4, and a usable one behind it, index 5. -/
def seeking (g : Gait) (front : FootRecord) : State :=
  let s := (stair g).setLeg .lh { LegState.reset with phase := .seeking, swingTimer := .running 1500 }
  place 2 (grating .candidate 900 330 180) <| place 4 front <| place 5 (grating (.reserved .lh) 1350 340 360) <|
    s.setQueue .lh [⟨4, 0⟩, ⟨5, 0⟩]

/-- A take answered CHECK frees the front and goes no further; the next front is taken in an event of its own (R57, R105). -/
theorem test_check_then_the_next_front :
    let s := (seeking .walking (damaged (grating (.reserved .lh) 1050 330 180))).seekAndReport .lh
    (s.leg .lh).phase = .seeking ∧ s.slot 4 = none ∧ s.queue .lh = [⟨5, 0⟩] ∧ s.newFronts.get .lh = true
      ∧ ((stepped s).leg .lh).phase = .swing ∧ ((stepped s).leg .lh).target = some ⟨5, 0⟩
      ∧ (stepped s).queue .lh = [] ∧ (stepped s).newFronts.get .lh = false := by decide +kernel

/-- An AMEND that selects nothing leaves the record and counts the candidates again (R27, R150). -/
theorem test_amend_of_nothing_recounts :
    let t := run (.amend (head .perception) 0x0050 0 0 0 0 0) (stair .off)
    t.trips.copies.candidateCount = 1 ∧ t.store = (stair .off).store ∧ reply t = [0x0200] := by decide +kernel

/-- FIND frees a nearest record that fails its check and answers the next (R32). -/
theorem test_find_goes_on :
    let s := place 7 (damaged (grating .candidate 1345 335 0)) (stair .walking)
    let t := run (.find (head .planner) 1345 335 100 4) s
    reply t = [0x0400, 0x0050, 5] ∧ t.slot 7 = none ∧ (t.node nodeRecord).pending = some (.record ⟨7, 0⟩ .check) := by
  decide +kernel

/-! ### States that meet the hypotheses of the statements -/

/-- A response goes out. -/
def sending (r : Response) (s : State) : State := { s with lanes := { s.lanes with inFlight := some r } }

/-- A rebase walk is in flight and visits this index next. -/
def rebase (next : Option RecordIndex) (s : State) : State :=
  { s with store := { s.store with walk := some ⟨next, 100, -100, 5, 0⟩ } }

/-- The expiry sweep visits this index next, in stride 7. -/
def sweep (i : RecordIndex) (s : State) : State :=
  { s with store := { s.store with sweep := some i }, seq := { s.seq with stride := 7 } }

/-- The record's slip count is 1. -/
def slipped (r : FootRecord) : FootRecord := { r with content := sealContent { r.content with slips := 1 } 0 }

theorem allLegs {p : Leg → Prop} (a : p .lf) (b : p .rf) (c : p .lh) (d : p .rh) : ∀ l, p l
  | .lf => a
  | .rf => b
  | .lh => c
  | .rh => d

/-- A frame of any client is taken where the lane interface stands as it does after reset. -/
theorem arrives {s : State} (h : s.lanes = State.reset.lanes) (c : Client) : Arrives s (head c) c where
  client := by cases c <;> rfl
  station := by rw [h]; cases c <;> rfl
  speaks := by rw [h]; decide
  single := by cases c <;> decide
  quiet := by unfold State.sendingOn; rw [h]; rfl
  settled := by rw [h]; nofun

/-- Frames of a client are taken, and no rebase walk is in flight, in each state of a list. -/
theorem readyAll {l : List State} (h : ∀ s ∈ l, s.lanes = State.reset.lanes ∧ s.store.walk = none) (c : Client) :
    ∀ s ∈ l, Arrives s (head c) c ∧ s.rebasing = false := fun s m =>
  ⟨arrives (h s m).1 c, by unfold State.rebasing; rw [(h s m).2]; rfl⟩

theorem namesNone_index (s : State) : NamesNone s 0x03F0 := by
  rintro i r ⟨h, _⟩
  have e : handleIndex 0x03F0 = 63 := by decide
  have := i.isLt
  omega

theorem namesNone_generation (g : Gait) : NamesNone (stair g) 0x0051 := by
  rintro i r ⟨_, h, _⟩
  have e : ∀ j : RecordIndex, (stair g).gen j = 0 := by intro j; revert j; cases g <;> decide
  rw [e i] at h
  exact absurd h (by decide)

theorem witness_EmptyQueueIdles : State.reset.pending = [] ∧ ∀ l, State.reset.newFronts.get l = false :=
  ⟨rfl, by intro l; cases l <;> rfl⟩

theorem witness_FramesNotTakenChangeNothing :
    frameOf (.margin (head .planner)) = some (head .planner, 19, [])
    ∧ (sending ⟨.a, [], true⟩ State.reset).sendingOn (head .planner).lane = true
    ∧ frameOf (.lastcmd ⟨.a, 14, 1⟩) = some (⟨.a, 14, 1⟩, 29, []) ∧ (14 : BitVec 4) ≠ State.reset.lanes.station
    ∧ (14 : BitVec 4) ≠ 15
    ∧ frameOf (.lastcmd ⟨.a, 0, 1⟩) = some (⟨.a, 0, 1⟩, 29, []) ∧ (State.resetWith 15).lanes.station = 0 :=
  ⟨rfl, by decide, rfl, by decide, by decide, rfl, by decide⟩

theorem witness_CutOfResetResponseResets :
    frameOf (.gaitReport (head .planner) 7) = some (head .planner, 16, [7])
    ∧ (sending ⟨.b, [], true⟩ State.reset).lanes.inFlight = some ⟨.b, [], true⟩ ∧ Lane.b ≠ (head .planner).lane
    ∧ (head .planner).station = (sending ⟨.b, [], true⟩ State.reset).lanes.station
    ∧ (sending ⟨.b, [], true⟩ State.reset).lanes.station ≠ 0
    ∧ frameOf (.gaitHalt everyone) = some (everyone, 16, [4]) ∧ everyone.station = 15 :=
  ⟨rfl, rfl, by decide, rfl, by decide, rfl, rfl⟩

theorem witness_RawCutOfResetResponseResets :
    let s := sending ⟨.b, [], true⟩ State.reset
    RawRow (.malformedFrame .a 0x61C0 [] (checkCode [0x61C0])) .a 0x61C0 []
    ∧ RawRow (.commandFrameCheckFailure .a 0xF9C0 [] (checkCode [0xF9C0])) .a 0xF9C0 []
    ∧ s.lanes.inFlight = some ⟨.b, [], true⟩ ∧ Lane.b ≠ .a
    ∧ (0x61C0 : Word).extractLsb' 12 4 = s.lanes.station ∧ s.lanes.station ≠ 0 ∧ (0xF9C0 : Word).extractLsb' 12 4 = 15#4 :=
  ⟨.inl rfl, .inr (.inr rfl), rfl, by decide, by decide, by decide, by decide⟩

theorem witness_UnlistedClientsAreRefused :
    frameOf (.gaitStand (head .perception)) = some (head .perception, 16, [0])
    ∧ Arrives State.reset (head .perception) .perception ∧ mayIssue 16 .perception = false
    ∧ frameOf (.friction (head .planner) 0 0 0) = some (head .planner, 34, [0, 0, 0])
    ∧ Arrives State.reset (head .planner) .planner ∧ mayIssue 34 .planner = false :=
  ⟨rfl, arrives (by rfl) _, by decide, rfl, arrives (by rfl) _, by decide⟩

theorem witness_WalkMakesCommandsBusy :
    let s := rebase (some 0) (stair .standing)
    frameOf (.margin (head .perception)) = some (head .perception, 19, []) ∧ Arrives s (head .perception) .perception
    ∧ mayIssue 19 .perception = true ∧ busySensitive 19 = true ∧ s.rebasing = true :=
  ⟨rfl, arrives (by rfl) _, by decide, by decide, by decide⟩

theorem witness_StatusAndLastcmdOnlyRead : Arrives (stair .walking) (head .perception) .perception := arrives (by rfl) _

/-- The transmitter of lane A is shut. -/
def shutA (s : State) : State := { s with lanes := { s.lanes with shutA := true } }

theorem arrives_shutA : Arrives (shutA State.reset) (head .supervisor) .supervisor :=
  ⟨rfl, rfl, by decide, by decide, rfl, nofun⟩

theorem witness_LaneShutsAndOpensTheOther :
    Arrives State.reset (head .supervisor) .supervisor ∧ 1 < (2 : Word).toNat
    ∧ laneOf 0 = some Lane.a ∧ (head .supervisor).lane = .a ∧ laneOf 1 = some Lane.b
    ∧ State.reset.lanes.isShut (head .supervisor).lane = false
    ∧ Arrives (shutA State.reset) (head .supervisor) .supervisor
    ∧ (shutA State.reset).lanes.isShut (head .supervisor).lane = true :=
  ⟨arrives (by rfl) _, by decide, by decide, rfl, by decide, by decide, arrives_shutA, by decide⟩

theorem witness_ResetFollowsItsResponse :
    Arrives (shutA State.reset) (head .supervisor) .supervisor
    ∧ (shutA State.reset).lanes.isShut (head .supervisor).lane = true
    ∧ Arrives State.reset (head .supervisor) .supervisor
    ∧ State.reset.lanes.isShut (head .supervisor).lane = false :=
  ⟨arrives_shutA, by decide, arrives (by rfl) _, by decide⟩

theorem witness_ResponseEnds :
    State.reset.lanes.inFlight = none
    ∧ (sending ⟨.a, [], false⟩ State.reset).lanes.inFlight = some ⟨.a, [], false⟩
    ∧ (sending ⟨.b, [], true⟩ State.reset).lanes.inFlight = some ⟨.b, [], true⟩ := ⟨rfl, rfl, rfl⟩

theorem witness_DamagedFrameSetsFrame :
    checkCode (0x69C0 :: []) ≠ checkCode [0x69C0] + 1 ∧ State.reset.sendingOn .a = false
    ∧ (sending ⟨.a, [], false⟩ State.reset).sendingOn .a = true := by decide +kernel

theorem witness_OtherStationsFrameIsIgnored :
    (0x59C0 : Word).extractLsb' 12 4 ≠ 15#4 ∧ (0x59C0 : Word).extractLsb' 12 4 ≠ State.reset.lanes.station
    ∧ (0xE9C0 : Word).extractLsb' 12 4 ≠ 15#4 ∧ (State.resetWith 15).lanes.station = 0 := by decide

theorem witness_MalformedFrameSetsMe :
    State.reset.sendingOn .a = false ∧ State.reset.lanes.inFlight = none
    ∧ (0x61C0 : Word).extractLsb' 12 4 = State.reset.lanes.station ∧ State.reset.lanes.station ≠ 0
    ∧ (0x61C0 : Word).extractLsb' 10 2 = 0#2
    ∧ commandCount ((0x69C1 : Word).extractLsb' 4 6) ≠ some ((0x69C1 : Word).extractLsb' 0 4).toNat
    ∧ ([] : List Word).length ≠ ((0x6831 : Word).extractLsb' 0 4).toNat
    ∧ (0xF9C0 : Word).extractLsb' 12 4 = 15#4 ∧ (0xF9C0 : Word).extractLsb' 4 6 ≠ 18#6
    ∧ (0xF9C0 : Word).extractLsb' 4 6 ≠ 16#6 ∧ ([0] : List Word).head? ≠ some 4 := by decide

theorem witness_MalformedCommandSetsMe :
    let s := sending ⟨.b, [], false⟩ State.reset
    frameOf (.status ⟨.a, 6, 0⟩) = some (⟨.a, 6, 0⟩, 28, []) ∧ s.sendingOn .a = false
    ∧ (∀ r, s.lanes.inFlight = some r → r.thenReset = false) ∧ (6 : BitVec 4) = s.lanes.station ∧ s.lanes.station ≠ 0
    ∧ frameOf (.margin everyone) = some (everyone, 19, []) ∧ everyone.station = 15 ∧ (19 : BitVec 6) ≠ 18
    ∧ (19 : BitVec 6) ≠ 16 ∧ frameOf (.gaitOff everyone) = some (everyone, 16, [3])
    ∧ ([3] : List Word).head? ≠ some 4 :=
  ⟨rfl, by decide, by rintro r h; cases h; rfl, rfl, by decide, rfl, rfl, by decide, by decide, rfl, by decide⟩

/-- A command row with client field 0, and a broadcast that may not be one, set ME and answer nothing (R175). -/
theorem test_malformed_commands_set_me :
    (run (.status ⟨.a, 6, 0⟩) State.reset).lanes.me = true ∧ (run (.gaitOff everyone) (stair .standing)).lanes.me = true
    ∧ (run (.gaitOff everyone) (stair .standing)).seq.gait = .standing
    ∧ (run (.status ⟨.a, 6, 0⟩) State.reset).lanes.inFlight = none := by decide +kernel

theorem witness_BroadcastsAreTakenUnanswered :
    clientOf everyone.client = some .planner ∧ everyone.station = 15
    ∧ (sending ⟨.b, [], false⟩ State.reset).sendingOn everyone.lane = false
    ∧ ∀ r, (sending ⟨.b, [], false⟩ State.reset).lanes.inFlight = some r → r.thenReset = false :=
  ⟨rfl, rfl, by decide, by rintro r h; cases h; rfl⟩

theorem witness_FreeingForgetsTheRecord :
    (stair .off).slot 39 = none ∧ (stair .off).slot 5 = some (grating .candidate 1350 340 360)
    ∧ RetireReason.expired ≠ .client := by decide +kernel

theorem witness_TransitionsSetTheTagAlone :
    (grating .candidate 0 0 0).state = .candidate ∧ (grating (.reserved .lf) 0 0 0).state = .reserved .lf
    ∧ (grating (.target .lf) 0 0 0).state = .target .lf ∧ (grating (.loaded .lf true) 0 0 0).state = .loaded .lf true :=
  ⟨rfl, rfl, rfl, rfl⟩

theorem witness_SlipsAndVacatesMarkTheRecord :
    (place 0 (grating (.loaded .lf true) 0 0 0) (stair .off)).slot 0 = some (grating (.loaded .lf true) 0 0 0)
    ∧ (stair .off).slot 0 = some (grating (.loaded .lf false) 1200 320 360)
    ∧ (grating (.loaded .lf false) 1200 320 360).content.slips = 0
    ∧ (place 0 (slipped (grating (.loaded .lf false) 0 0 0)) (stair .off)).slot 0
        = some (slipped (grating (.loaded .lf false) 0 0 0))
    ∧ (slipped (grating (.loaded .lf false) 0 0 0)).content.slips ≠ 0 := by decide +kernel

theorem witness_CheckFailureByState :
    (stair .off).slot 5 = some (grating .candidate 1350 340 360)
    ∧ (stair .off).slot 6 = some (grating .suspect 1340 300 360)
    ∧ (stair .off).slot 4 = some (grating (.reserved .lh) 1050 330 180)
    ∧ (stepping .unloading .walking).slot 4 = some (grating (.target .lh) 1050 330 180)
    ∧ ((stepping .unloading .walking).leg .lh).phase = .unloading
    ∧ (stepping .touchdown .walking).slot 4 = some (grating (.target .lh) 1050 330 180)
    ∧ ((stepping .touchdown .walking).leg .lh).phase = .touchdown
    ∧ (stair .off).slot 0 = some (grating (.loaded .lf false) 1200 320 360)
    ∧ (place 0 (grating (.loaded .lf true) 0 0 0) (stair .off)).slot 0 = some (grating (.loaded .lf true) 0 0 0) := by
  decide +kernel

theorem witness_SubmitCreatesACandidate :
    Arrives (stair .off) (head .perception) .perception ∧ (stair .off).rebasing = false ∧ Lowest 0x8000
    ∧ BadClassWord 0x8000 ∧ BadClassWord 0x0D00 ∧ BadClassWord 0x0010 ∧ ¬Lowest 0x8001 ∧ ¬BadClassWord 0x7C0F
    ∧ (stair .off).slot 7 = none ∧ (∀ j, j < (7 : RecordIndex) → (stair .off).slot j ≠ none)
    ∧ ∀ i, ({ State.reset with
        store := { State.reset.store with
          slots := Vector.replicate 40 (some (grating .suspect 0 0 0)) } } : State).slot i ≠ none := by
  refine ⟨arrives (by rfl) _, ?_⟩
  unfold Lowest BadClassWord
  decide +kernel

/-- The records of the stair that the handle words 0x0040, 0x0050 and 0x0060 name, and a LOADED one. -/
theorem stair_names (g : Gait) :
    Names (stair g) 0x0040 4 (grating (.reserved .lh) 1050 330 180)
    ∧ Names (stair g) 0x0050 5 (grating .candidate 1350 340 360)
    ∧ Names (stair g) 0x0060 6 (grating .suspect 1340 300 360)
    ∧ Names (stair g) 0x0000 0 (grating (.loaded .lf false) 1200 320 360) := by
  unfold Names
  cases g <;> decide +kernel

/-- The target of a leg in flight has its handle word. -/
theorem stepping_names : Names (stepping .swing .walking) 0x0040 4 (grating (.target .lh) 1050 330 180) := by
  unfold Names
  decide +kernel

/-- A machine on the stair whose record 0 is LOADED with its check-failed flag set. -/
def failing (g : Gait) : State := place 0 (grating (.loaded .lf true) 1200 320 360) (stair g)

theorem failing_names : Names (failing .halted) 0x0000 0 (grating (.loaded .lf true) 1200 320 360) := by
  unfold Names
  decide +kernel

/-- A machine on the stair in which this record stands at index 5. -/
def holding (r : FootRecord) : State := place 5 r (stair .off)

theorem witness_AmendChangesTheSelectedFields :
    (∀ s ∈ [stair .off, stepping .swing .walking], Arrives s (head .perception) .perception ∧ s.rebasing = false)
    ∧ Client.perception ≠ .planner
    ∧ ((1 : Word).getLsbD 0 = true ∧ Lowest 0x8000)
    ∧ ((2 : Word).getLsbD 1 = true ∧ 7 < ((0x8000 : Word).extractLsb' 12 4).toNat)
    ∧ ((4 : Word).getLsbD 2 = true ∧ 12 < ((0x0D00 : Word).extractLsb' 8 4).toNat)
    ∧ ((8 : Word).getLsbD 3 = true ∧ 15 < ((0x0010 : Word).extractLsb' 0 8).toNat)
    ∧ NamesNone (stair .off) 0x0051
    ∧ Names (stepping .swing .walking) 0x0040 4 (grating (.target .lh) 1050 330 180)
    ∧ Names (stair .off) 0x0000 0 (grating (.loaded .lf false) 1200 320 360)
    ∧ (Names (stair .off) 0x0050 5 (grating .candidate 1350 340 360) ∧ (16 : Word).getLsbD 4 = true)
    ∧ (Names (stair .off) 0x0040 4 (grating (.reserved .lh) 1050 330 180) ∧ (1 : Word).getLsbD 0 = true)
    ∧ (Names (stair .off) 0x0060 6 (grating .suspect 1340 300 360)
        ∧ ∀ j ∈ [0, 1, 2, 3, 4], (0xFFE0 : Word).getLsbD j = false)
    ∧ (8 : Word).getLsbD 0 = false ∧ (8 : Word).getLsbD 4 = false
    ∧ (let c := amended (stair .off) 8 0 0 0 0x0004 (grating (.reserved .lh) 1050 330 180).content 0
       slopePasses c = true ∧ (stair .off).param 13 ≤ (c.confidence.toNat : Int))
    ∧ (let c := amended (stair .off) 8 0 0 0 0x0003 (grating (.reserved .lh) 1050 330 180).content 0
       (c.confidence.toNat : Int) < (stair .off).param 13) := by
  refine ⟨readyAll (by decide) _, by decide, ?_, by decide, by decide, by decide, namesNone_generation _,
    stepping_names, (stair_names _).2.2.2, ⟨(stair_names _).2.1, by decide⟩, ⟨(stair_names _).1, by decide⟩,
    ⟨(stair_names _).2.2.1, by decide⟩, by decide, by decide, ?_, ?_⟩
  · unfold Lowest
    decide
  · decide +kernel
  · decide +kernel

theorem witness_QueryReadsOrFailsTheRecord :
    (∀ s ∈ [stair .off, failing .halted, holding (damaged (grating .suspect 0 0 0))],
      Arrives s (head .perception) .perception ∧ s.rebasing = false)
    ∧ NamesNone (stair .off) 0x03F0
    ∧ Names (failing .halted) 0x0000 0 (grating (.loaded .lf true) 1200 320 360)
    ∧ Names (stair .off) 0x0050 5 (grating .candidate 1350 340 360)
    ∧ checkCode (coveredWords (grating .candidate 1350 340 360).content ((stair .off).gen 5))
        = (grating .candidate 1350 340 360).content.check
    ∧ Names (holding (damaged (grating .suspect 0 0 0))) 0x0050 5 (damaged (grating .suspect 0 0 0))
    ∧ checkCode (coveredWords (damaged (grating .suspect 0 0 0)).content 0)
        ≠ (damaged (grating .suspect 0 0 0)).content.check := by
  refine ⟨readyAll (by decide +kernel) _, namesNone_index _, failing_names, (stair_names _).2.1,
    by decide +kernel, ?_, by decide +kernel⟩
  unfold Names
  decide +kernel

/-- A store whose only record stands at index 5. -/
def lone (r : FootRecord) : State := place 5 r State.reset

theorem lone_slots (r : FootRecord) (i : RecordIndex) (q : FootRecord) (h : (lone r).slot i = some q) : i = 5 ∧ q = r := by
  by_cases e : i = 5
  · subst e
    have k : (lone r).slot 5 = some r := rfl
    rw [k] at h
    exact ⟨rfl, (Option.some.inj h).symm⟩
  · have k : ∀ j : RecordIndex, j ≠ 5 → (lone r).slot j = none := by
      intro j hj
      fin_cases j <;> first | rfl | exact absurd rfl hj
    rw [k i e] at h
    cases h

/-- The record of a lone store qualifies at its distance, at the edge of the radius. -/
theorem lone_qualifies (r : FootRecord) (h : r = grating .candidate 1350 340 360 ∨ r = damaged (grating .candidate 1350 340 360)) :
    Qualifies (lone r) 1250 340 100 9 5 100 := by
  refine ⟨r, rfl, ?_⟩
  rcases h with rfl | rfl <;> decide +kernel

theorem lone_nearest (r : FootRecord) (h : r = grating .candidate 1350 340 360 ∨ r = damaged (grating .candidate 1350 340 360))
    (j : RecordIndex) (e : Nat) (q : Qualifies (lone r) 1250 340 100 9 j e) : 100 < e ∨ (100 = e ∧ 5 ≤ j) := by
  obtain ⟨p, hp, -, -, -, -, hd, -⟩ := q
  obtain ⟨rfl, rfl⟩ := lone_slots r j p hp
  right
  refine ⟨?_, le_refl _⟩
  rw [hd]
  rcases h with rfl | rfl <;> decide +kernel

theorem witness_FindAnswersTheNearest :
    (∀ s ∈ [State.reset, lone (grating .candidate 1350 340 360), lone (damaged (grating .candidate 1350 340 360))],
      Arrives s (head .planner) .planner ∧ s.rebasing = false)
    ∧ Lowest 0x8000 ∧ (0 : Word).toNat < 1 ∧ 2000 < (2001 : Word).toNat ∧ 15 < (16 : Word).toNat
    ∧ (∀ i d, ¬Qualifies State.reset 0 0 2000 0 i d)
    ∧ Qualifies (lone (grating .candidate 1350 340 360)) 1250 340 100 9 5 100
    ∧ (∀ j e, Qualifies (lone (grating .candidate 1350 340 360)) 1250 340 100 9 j e → 100 < e ∨ (100 = e ∧ 5 ≤ j))
    ∧ Verifies (lone (grating .candidate 1350 340 360)) 5
    ∧ Qualifies (lone (damaged (grating .candidate 1350 340 360))) 1250 340 100 9 5 100
    ∧ (∀ j e, Qualifies (lone (damaged (grating .candidate 1350 340 360))) 1250 340 100 9 j e →
        100 < e ∨ (100 = e ∧ 5 ≤ j))
    ∧ ¬Verifies (lone (damaged (grating .candidate 1350 340 360))) 5 := by
  refine ⟨readyAll (by decide +kernel) _, rfl, by decide, by decide, by decide, ?_, lone_qualifies _ (.inl rfl),
    lone_nearest _ (.inl rfl), ⟨_, rfl, by decide +kernel⟩, lone_qualifies _ (.inr rfl), lone_nearest _ (.inr rfl), ?_⟩
  · rintro i d ⟨r, h, -⟩
    have e : ∀ j, State.reset.slot j = none := by decide
    rw [e i] at h
    cases h
  · rintro ⟨r, h, k⟩
    obtain ⟨-, rfl⟩ := lone_slots _ _ _ h
    revert k
    decide +kernel

theorem witness_RetireFreesUnheldRecords :
    (∀ s ∈ [stair .off, stepping .swing .walking], Arrives s (head .planner) .planner ∧ s.rebasing = false)
    ∧ Arrives (stair .off) (head .perception) .perception ∧ NamesNone (stair .off) 0x0051
    ∧ Names (stair .off) 0x0050 5 (grating .candidate 1350 340 360)
    ∧ Names (stair .off) 0x0060 6 (grating .suspect 1340 300 360)
    ∧ Names (stair .off) 0x0040 4 (grating (.reserved .lh) 1050 330 180)
    ∧ Names (stair .off) 0x0000 0 (grating (.loaded .lf false) 1200 320 360)
    ∧ Names (stepping .swing .walking) 0x0040 4 (grating (.target .lh) 1050 330 180) :=
  ⟨readyAll (by decide +kernel) _, arrives (by rfl) _, namesNone_generation _, (stair_names _).2.1,
    (stair_names _).2.2.1, (stair_names _).1, (stair_names _).2.2.2, stepping_names⟩

theorem witness_RestoreRewritesAFailedStanceRecord :
    (∀ s ∈ [failing .halted, stair .standing], Arrives s (head .supervisor) .supervisor ∧ s.rebasing = false)
    ∧ Lowest 0x8000 ∧ BadClassWord 0x0010 ∧ 511 < (512 : Word).toNat
    ∧ ¬(Lowest 0x8001 ∨ BadClassWord 0x7C0F ∨ 511 < (511 : Word).toNat)
    ∧ NamesNone (failing .halted) 0x03F0
    ∧ Names (failing .halted) 0x0000 0 (grating (.loaded .lf true) 1200 320 360) ∧ (failing .halted).seq.gait = .halted
    ∧ Names (stair .standing) 0x0050 5 (grating .candidate 1350 340 360) ∧ (stair .standing).seq.gait ≠ .halted := by
  refine ⟨readyAll (by decide +kernel) _, rfl, ?_, by decide, ?_, namesNone_index _, failing_names, by decide,
    (stair_names _).2.1, by decide⟩
  · unfold BadClassWord
    decide
  · unfold Lowest BadClassWord
    decide

/-- A held record stays in the frame: the premise of an accepted REBASE, for a store of one record. -/
theorem lone_stays (x : Word) (hx : x = 0) : ∀ i r, (lone (grating (.reserved .lf) x 0 0)).slot i = some r →
    -32767 ≤ r.content.x.toInt + (0x8001 : Word).toInt ∧ r.content.x.toInt + (0x8001 : Word).toInt ≤ 32767 := by
  subst hx
  intro i r h
  obtain ⟨-, rfl⟩ := lone_slots _ _ _ h
  decide

theorem witness_RebaseStartsTheWalk :
    (∀ s ∈ [lone (grating (.reserved .lf) 0 0 0), lone (grating (.reserved .lf) 1 0 0), stepping .swing .walking],
      Arrives s (head .supervisor) .supervisor ∧ s.rebasing = false)
    ∧ Lowest 0x8000 ∧ ¬Lowest 0x8001
    ∧ ((stepping .swing .walking).leg .lh).phase.inFlight = true
    ∧ ¬((∃ l, ((lone (grating (.reserved .lf) 0 0 0)).leg l).phase.inFlight = true)
        ∨ (lone (grating (.reserved .lf) 0 0 0)).seq.liftPending ≠ none)
    ∧ ((lone (grating (.reserved .lf) 1 0 0)).slot 5 = some (grating (.reserved .lf) 1 0 0)
        ∧ ¬((grating (.reserved .lf) 1 0 0).content.x.toInt + (0x7FFF : Word).toInt ≤ 32767))
    ∧ ∀ i r, (lone (grating (.reserved .lf) 0 0 0)).slot i = some r →
        -32767 ≤ r.content.x.toInt + (0x8001 : Word).toInt ∧ r.content.x.toInt + (0x8001 : Word).toInt ≤ 32767 := by
  refine ⟨readyAll (by decide +kernel) _, rfl, by unfold Lowest; decide, by decide, ?_, ⟨rfl, by decide⟩, lone_stays 0 rfl⟩
  rintro (⟨l, h⟩ | h)
  · cases l <;> exact absurd h (by decide)
  · exact h rfl

theorem witness_WalkShiftsOrRetiresEachRecord :
    (∀ w, (rebase none State.reset).store.walk = some w → w.next = none)
    ∧ (rebase (some 39) State.reset).store.walk = some ⟨some 39, 100, -100, 5, 0⟩
    ∧ (rebase (some 39) State.reset).slot 39 = none
    ∧ (rebase (some 5) (lone (grating .candidate 32667 0 0))).slot 5 = some (grating .candidate 32667 0 0)
    ∧ (32667 : Word).toInt + (100 : Word).toInt ≤ 32767
    ∧ (rebase (some 5) (lone (grating .candidate 32668 0 0))).slot 5 = some (grating .candidate 32668 0 0)
    ∧ ¬((32668 : Word).toInt + (100 : Word).toInt ≤ 32767)
    ∧ (rebase (some 5) (lone (grating .suspect 32668 0 0))).slot 5 = some (grating .suspect 32668 0 0)
    ∧ (rebase (some 0) (stair .halted)).slot 0 = some (grating (.loaded .lf false) 1200 320 360) := by
  refine ⟨by rintro w h; cases h; rfl, rfl, by decide, rfl, by decide, rfl, by decide, rfl, by decide +kernel⟩

theorem witness_WalkCompletionEndsTheRebase :
    (∀ w, (rebase (some 39) State.reset).store.walk = some w → w.next ≠ none)
    ∧ (rebase none State.reset).store.walk = some ⟨none, 100, -100, 5, 0⟩ :=
  ⟨by rintro w h; cases h; nofun, rfl⟩

theorem witness_SweepExpiresOldRecords :
    State.reset.store.sweep = none ∧ (sweep 39 (stair .walking)).store.sweep = some 39
    ∧ (sweep 39 (stair .walking)).slot 39 = none
    ∧ (sweep 5 (stair .walking)).slot 5 = some (grating .candidate 1350 340 360)
    ∧ (sweep 5 (stair .walking)).paramNat 12 < ((sweep 5 (stair .walking)).seq.stride.toNat + 4096 - 0) % 4096
    ∧ ¬(sweep 5 (stair .walking)).paramNat 12 < (6 + 4096 - 0) % 4096
    ∧ (sweep 6 (stair .walking)).slot 6 = some (grating .suspect 1340 300 360)
    ∧ (sweep 4 (stair .walking)).slot 4 = some (grating (.reserved .lh) 1050 330 180) := by decide +kernel

theorem witness_DisturbanceChangesContentAlone :
    (stair .off).slot 5 = some (grating .candidate 1350 340 360)
    ∧ checkCode (coveredWords (damaged (grating .candidate 0 0 0)).content ((stair .off).gen 5))
        ≠ (damaged (grating .candidate 0 0 0)).content.check
    ∧ (stair .off).slot 39 = none
    ∧ checkCode (coveredWords (grating .candidate 0 0 0).content ((stair .off).gen 5))
        = (grating .candidate 0 0 0).content.check := by decide +kernel

theorem legWord_least : LegWord 0 .lf := rfl

theorem legWord_greatest : LegWord 3 .rh := rfl

/-- A record that is too steep: slope grade 13, which a disturbance may leave. -/
def steep (r : FootRecord) : FootRecord := { r with content := sealContent { r.content with slope := 13 } 0 }

/-- A record whose confidence is one below the default of parameter 13. -/
def doubtful (r : FootRecord) : FootRecord := { r with content := sealContent { r.content with confidence := 3 } 0 }

theorem holding_names (r : FootRecord) : Names (holding r) 0x0050 5 r := by
  refine ⟨by decide, ?_, rfl⟩
  rw [show (holding r).gen 5 = 0 from rfl]
  decide

theorem lone_names (r : FootRecord) : Names (lone r) 0x0050 5 r := by
  refine ⟨by decide, ?_, rfl⟩
  rw [show (lone r).gen 5 = 0 from rfl]
  decide

theorem lone_tooClose (r : FootRecord) (l : Leg) (h : r.state = .candidate) : ¬TooClose (lone r) l r.content := by
  rintro ⟨i, q, o, hq, -, hs, -⟩
  obtain ⟨-, rfl⟩ := lone_slots _ _ _ hq
  rw [h] at hs
  rcases hs with hs | hs | ⟨f, hs⟩ <;> cases hs

/-- LF's record 0 stands at (1200, 320), and the min foot spacing is 80. -/
theorem holding_tooClose (g : Gait) : TooClose (stair g) .rh (grating .candidate 1279 320 360).content := by
  refine ⟨0, grating (.loaded .lf false) 1200 320 360, .lf, ?_⟩
  refine ⟨(stair_names g).2.2.2.2.2, by decide, .inr (.inr ⟨false, rfl⟩), ?_⟩
  cases g <;> decide +kernel

theorem witness_ReserveJoinsTheQueue :
    (∀ s ∈ [stair .off, (lone (grating .candidate 0 0 0)).setQueue .rh [⟨7, 0⟩, ⟨8, 0⟩, ⟨9, 0⟩],
        (lone (grating .candidate 0 0 0)).setQueue .rh [⟨7, 0⟩, ⟨8, 0⟩], holding (steep (grating .candidate 0 0 0)),
        holding (doubtful (grating .candidate 0 0 0)), holding (damaged (grating .candidate 0 0 0)),
        holding (grating .candidate 1279 320 360), lone (grating .candidate 0 0 0)],
      Arrives s (head .planner) .planner ∧ s.rebasing = false)
    ∧ Client.planner ≠ .perception
    ∧ 3 < (4 : Word).toNat ∧ LegWord 3 .rh ∧ NamesNone (stair .off) 0x0051
    ∧ (Names (stair .off) 0x0060 6 (grating .suspect 1340 300 360) ∧ (grating .suspect 1340 300 360).state ≠ .candidate)
    ∧ (Names (lone (grating .candidate 0 0 0)) 0x0050 5 (grating .candidate 0 0 0)
        ∧ 3 ≤ (((lone (grating .candidate 0 0 0)).setQueue .rh [⟨7, 0⟩, ⟨8, 0⟩, ⟨9, 0⟩]).queue .rh).length
        ∧ (((lone (grating .candidate 0 0 0)).setQueue .rh [⟨7, 0⟩, ⟨8, 0⟩]).queue .rh).length < 3)
    ∧ (Names (holding (steep (grating .candidate 0 0 0))) 0x0050 5 (steep (grating .candidate 0 0 0))
        ∧ slopePasses (steep (grating .candidate 0 0 0)).content = false)
    ∧ (Names (holding (doubtful (grating .candidate 0 0 0))) 0x0050 5 (doubtful (grating .candidate 0 0 0))
        ∧ ((doubtful (grating .candidate 0 0 0)).content.confidence.toNat : Int) < State.reset.param 13)
    ∧ (Names (holding (damaged (grating .candidate 0 0 0))) 0x0050 5 (damaged (grating .candidate 0 0 0))
        ∧ slopePasses (damaged (grating .candidate 0 0 0)).content = true
        ∧ checkCode (coveredWords (damaged (grating .candidate 0 0 0)).content 0)
            ≠ (damaged (grating .candidate 0 0 0)).content.check)
    ∧ (Names (holding (grating .candidate 1279 320 360)) 0x0050 5 (grating .candidate 1279 320 360)
        ∧ TooClose (stair .off) .rh (grating .candidate 1279 320 360).content)
    ∧ ¬TooClose (lone (grating .candidate 0 0 0)) .rh (grating .candidate 0 0 0).content :=
  ⟨readyAll (by decide +kernel) _, by decide, by decide, legWord_greatest, namesNone_generation _,
    ⟨(stair_names _).2.2.1, by decide⟩, ⟨lone_names _, by decide, by decide⟩, ⟨holding_names _, by decide⟩,
    ⟨holding_names _, by decide⟩, ⟨holding_names _, by decide, by decide +kernel⟩,
    ⟨holding_names _, holding_tooClose _⟩, lone_tooClose _ _ rfl⟩

theorem witness_CancelReturnsTheRecord :
    (∀ s ∈ [stair .off, stepping .swing .walking], Arrives s (head .planner) .planner ∧ s.rebasing = false)
    ∧ Client.planner ≠ .perception
    ∧ NamesNone (stair .off) 0x03F0 ∧ Names (stair .off) 0x0040 4 (grating (.reserved .lh) 1050 330 180)
    ∧ Names (stepping .swing .walking) 0x0040 4 (grating (.target .lh) 1050 330 180)
    ∧ Names (stair .off) 0x0050 5 (grating .candidate 1350 340 360) :=
  ⟨readyAll (by decide +kernel) _, by decide, namesNone_index _, (stair_names _).1, stepping_names,
    (stair_names _).2.1⟩

theorem witness_ReadingCommandsOnlyRead :
    Arrives (stair .walking) (head .planner) .planner ∧ LegWord 3 .rh ∧ 3 < (4 : Word).toNat
    ∧ (stair .walking).rebasing = false ∧ (17 : Word).toNat = (17 : Fin 18).val ∧ 17 < (18 : Word).toNat
    ∧ (7 : Word).toNat = (7 : Fin 8).val ∧ 7 < (8 : Word).toNat ∧ Client.planner ≠ .perception :=
  ⟨arrives (by rfl) _, legWord_greatest, by decide, by decide, by decide, by decide, by decide, by decide, by decide⟩

theorem witness_OrdersAreNumberedAndPend :
    (State.reset.port .rh).linkUp = false ∧ ((stair .off).port .rh).linkUp = true := by decide

/-- LF is IDLE, its link UP, and this normal load was last reported. -/
def idle (load : BitVec 11) (s : State) : State :=
  (s.setLeg .lf { LegState.reset with phase := .idle }).setPort .lf
    { Port.reset with linkUp := true, arming := .forLiftoff, report := ⟨load, 0, false, false, 0⟩ }

theorem idle_names (load : BitVec 11) (r : FootRecord) : Names (idle load (lone r)) 0x0050 5 r := lone_names r

theorem witness_AdoptStandsTheLeg :
    Arrives (stair .off) (head .planner) .planner ∧ (stair .off).rebasing = false ∧ 3 < (4 : Word).toNat ∧ LegWord 0 .lf
    ∧ NamesNone (stair .off) 0x0051
    ∧ (Names (stair .off) 0x0050 5 (grating .candidate 1350 340 360) ∧ ((stair .off).leg .lf).phase ≠ .idle)
    ∧ (∀ (load : BitVec 11) (r : FootRecord), Arrives (idle load (lone r)) (head .planner) .planner
        ∧ (idle load (lone r)).rebasing = false ∧ Names (idle load (lone r)) 0x0050 5 r
        ∧ ((idle load (lone r)).leg .lf).phase = .idle)
    ∧ (((idle 59 (lone (grating .candidate 0 0 0))).port .lf).report.normal.toNat : Int) < State.reset.param 2
    ∧ ¬((((idle 60 (lone (grating .candidate 0 0 0))).port .lf).report.normal.toNat : Int) < State.reset.param 2)
    ∧ (grating .suspect 0 0 0).state ≠ .candidate ∧ slopePasses (steep (grating .candidate 0 0 0)).content = false
    ∧ checkCode (coveredWords (damaged (grating .candidate 0 0 0)).content 0)
        ≠ (damaged (grating .candidate 0 0 0)).content.check
    ∧ TooClose (stair .off) .rh (grating .candidate 1279 320 360).content
    ∧ ¬TooClose (idle 60 (lone (grating .candidate 0 0 0))) .lf (grating .candidate 0 0 0).content :=
  ⟨arrives (by rfl) _, by decide, by decide, legWord_least, namesNone_generation _,
    ⟨(stair_names _).2.1, by decide⟩, fun _ _ => ⟨arrives (by rfl) _, rfl, idle_names _ _, rfl⟩, by decide, by decide,
    by decide, by decide, by decide +kernel, holding_tooClose _, lone_tooClose _ _ rfl⟩

/-- LH swings to index 4, and this record is the front of its queue, RESERVED for it. -/
def fronted (p : Phase) (r : FootRecord) : State := place 5 r ((stepping p .walking).setQueue .lh [⟨5, 0⟩])

theorem witness_RedirectTakesTheFront :
    let front := grating (.reserved .lh) 1350 340 360
    (∀ s ∈ [stair .off, stepping .descent .walking, fronted .swing front, fronted .swing (doubtful front),
        fronted .swing (damaged front)], Arrives s (head .planner) .planner ∧ s.rebasing = false)
    ∧ 3 < (4 : Word).toNat ∧ LegWord 2 .lh
    ∧ ((stair .off).leg .lh).phase ≠ .swing ∧ ((stair .off).leg .lh).phase ≠ .descent
    ∧ ((stepping .descent .walking).leg .lh).phase = .descent ∧ (stepping .descent .walking).queue .lh = []
    ∧ ((fronted .swing front).leg .lh).phase = .swing ∧ (fronted .swing front).queue .lh = [⟨5, 0⟩]
    ∧ (fronted .swing front).slot 5 = some front ∧ front.state = .reserved .lh
    ∧ slopePasses front.content = true ∧ checkCode (coveredWords front.content 0) = front.content.check
    ∧ (fronted .swing (doubtful front)).slot 5 = some (doubtful front)
    ∧ ((doubtful front).content.confidence.toNat : Int) < State.reset.param 13
    ∧ (fronted .swing (damaged front)).slot 5 = some (damaged front)
    ∧ checkCode (coveredWords (damaged front).content 0) ≠ (damaged front).content.check
    ∧ ((fronted .swing front).leg .lh).target = some ⟨4, 0⟩ ∧ (4 : RecordIndex) ≠ 5
    ∧ (fronted .swing front).slot 4 = some (grating (.target .lh) 1050 330 180) := by
  refine ⟨readyAll (by decide +kernel) _, ?_⟩
  unfold LegWord
  decide +kernel

theorem witness_RelinkDeclaresDown :
    Arrives (stair .off) (head .supervisor) .supervisor ∧ 3 < (4 : Word).toNat ∧ LegWord 3 .rh
    ∧ ((stair .off).port .rh).slipHeld = false
    ∧ (((stair .off).setPort .rh { (stair .off).port .rh with slipHeld := true }).port .rh).slipHeld = true :=
  ⟨arrives (by rfl) _, by decide, legWord_greatest, by decide, by decide⟩

/-- LH's lift is pending. -/
def lifting (s : State) : State := { s with seq := { s.seq with liftPending := some .lh } }

/-- LH's lift is pending and this record is the front of its queue. -/
def liftingOn (g : Gait) (r : FootRecord) : State := lifting (place 4 r (stair g))

theorem witness_LiftTakesTheFront :
    let front := grating (.reserved .lh) 1050 330 180
    (stair .walking).seq.liftPending = none ∧ (rebase (some 0) (lifting (stair .walking))).rebasing = true
    ∧ (lifting (stair .walking)).seq.liftPending = some .lh ∧ (lifting (stair .walking)).rebasing = false
    ∧ ((lifting State.reset).leg .lh).phase ≠ .stance
    ∧ ((liftingOn .walking front).leg .lh).phase = .stance ∧ (liftingOn .walking front).queue .lh = [⟨4, 0⟩]
    ∧ (liftingOn .walking front).slot 4 = some front ∧ front.state = .reserved .lh
    ∧ (liftingOn .walking (steep front)).slot 4 = some (steep front) ∧ slopePasses (steep front).content = false
    ∧ (liftingOn .stopping (damaged front)).slot 4 = some (damaged front)
    ∧ checkCode (coveredWords (damaged front).content 0) ≠ (damaged front).content.check
    ∧ slopePasses front.content = true ∧ State.reset.param 13 ≤ (front.content.confidence.toNat : Int)
    ∧ checkCode (coveredWords front.content 0) = front.content.check
    ∧ (liftingOn .walking front).seq.gait ≠ .stopping ∧ (liftingOn .halted front).seq.gait = .halted := by
  decide +kernel

theorem witness_WithdrawalHandsTheTargetBack :
    let s := stepping .unloading .walking
    let last := grating (.reserved .lh) 1350 340 360
    let full := place 7 last (s.setQueue .lh [⟨5, 0⟩, ⟨6, 0⟩, ⟨7, 0⟩])
    ((stair .off).leg .lh).phase ≠ .unloading
    ∧ (s.leg .lh).phase = .unloading ∧ (s.leg .lh).target = some ⟨4, 0⟩
    ∧ s.slot 4 = some (grating (.target .lh) 1050 330 180) ∧ (s.queue .lh).length < 3
    ∧ ((s.setQueue .lh [⟨5, 0⟩, ⟨6, 0⟩]).queue .lh).length < 3
    ∧ full.queue .lh = [⟨5, 0⟩, ⟨6, 0⟩, ⟨7, 0⟩] ∧ (7 : RecordIndex) ≠ 4 ∧ full.slot 7 = some last
    ∧ last.state = .reserved .lh ∧ full.slot 4 = some (grating (.target .lh) 1050 330 180) := by decide +kernel

theorem witness_LegTimersExpire :
    ((stair .off).leg .lh).phase ≠ .descent ∧ ((stair .off).leg .lh).settleTimer = .stopped
    ∧ ((stair .off).leg .lh).swingTimer = .stopped
    ∧ ((stepping .descent .walking).leg .lh).swingTimer = .running 1500
    ∧ ((stepping .descent .walking).leg .lh).phase = .descent
    ∧ ((stepping .descent .walking).leg .lh).descentTimer = .running 400
    ∧ ((stepping .descent .walking).leg .lh).target = some ⟨4, 0⟩
    ∧ (stepping .descent .walking).slot 4 = some (grating (.target .lh) 1050 330 180)
    ∧ ((stepping .touchdown .walking).leg .lh).phase = .touchdown
    ∧ ((stepping .touchdown .walking).leg .lh).settleTimer = .running 60
    ∧ ((stepping .touchdown .walking).leg .lh).target = some ⟨4, 0⟩
    ∧ (stepping .touchdown .walking).slot 4 = some (grating (.target .lh) 1050 330 180) := by decide +kernel

/-- RH's port with an order pending and so many retries used. -/
def waiting (retries : Nat) : State :=
  (stair .off).setPort .rh
    { (stair .off).port .rh with
      lastNumber := 0, lastKind := some .hold, pending := some ⟨0, .hold, 0, 0, 0⟩, retries := retries
      echoTimer := .running 10 }

theorem witness_EchoExpiryResendsOrGivesUp :
    ((stair .off).port .rh).echoTimer = .stopped ∧ ((waiting 1).port .rh).echoTimer = .running 10
    ∧ ((waiting 1).port .rh).pending = some ⟨0, .hold, 0, 0, 0⟩
    ∧ ((waiting 1).port .rh).retries < (waiting 1).paramNat 11
    ∧ (waiting 2).paramNat 11 ≤ ((waiting 2).port .rh).retries ∧ ((waiting 2).port .rh).echoTimer = .running 10
    ∧ ((waiting 2).port .rh).pending = some ⟨0, .hold, 0, 0, 0⟩ := by decide

/-- RH's port with this many reports in the window, its link DOWN after this run of good windows. -/
def window (up : Bool) (count run : Nat) : State :=
  State.reset.setPort .rh { Port.reset with linkUp := up, windowCount := count, goodRun := run }

theorem witness_WindowEndsMoveTheLink :
    ((window true 4 0).port .rh).linkUp = true ∧ (window true 4 0).paramNat 9 ≤ ((window true 4 0).port .rh).windowCount
    ∧ ((window true 3 0).port .rh).linkUp = true ∧ ¬(window true 3 0).paramNat 9 ≤ ((window true 3 0).port .rh).windowCount
    ∧ ((window false 4 0).port .rh).linkUp = false ∧ ((window false 4 0).port .rh).goodRun ≠ 1
    ∧ (window false 4 1).paramNat 9 ≤ ((window false 4 1).port .rh).windowCount ∧ ((window false 4 1).port .rh).goodRun = 1
    ∧ ((window false 3 1).port .rh).linkUp = false
    ∧ ¬(window false 3 1).paramNat 9 ≤ ((window false 3 1).port .rh).windowCount := by decide

/-- RH holds a slip whose re-arm timer runs, and LF's slip-latched flag is as given. -/
def rearming (other : Bool) : State :=
  ((stair .off).setPort .rh { (stair .off).port .rh with slipHeld := true, rearmTimer := .running 60 }).setLeg .lf
    { (stair .off).leg .lf with slipLatched := other }

theorem witness_SlipRearmClearsTheSlip :
    ((stair .off).port .rh).rearmTimer = .stopped ∧ ((rearming true).port .rh).rearmTimer = .running 60
    ∧ ((rearming true).port .rh).slipHeld = true ∧ Leg.lf ≠ .rh ∧ ((rearming true).leg .lf).slipLatched = true
    ∧ ((rearming false).port .rh).rearmTimer = .running 60 ∧ ((rearming false).port .rh).slipHeld = true
    ∧ ∀ m, m ≠ Leg.rh → ((rearming false).leg m).slipLatched = false :=
  ⟨by decide, by decide, by decide, by decide, by decide, by decide, by decide,
    allLegs (fun _ => rfl) (fun _ => rfl) (fun _ => rfl) (fun h => absurd rfl h)⟩

theorem witness_ReportsAreStoredOrSetFrame :
    checkCode [0, 190, 20] ≠ checkCode [0, 190, 20] + 1 ∧ checkCode [0, 190, 20] = checkCode [0, 190, 20] := by
  decide +kernel

theorem witness_ReportsTakeTheirStepsInOrder :
    (0x0800 : Word).extractLsb' 0 3 = 0 ∧ (State.reset.port .lf).linkUp = false ∧ ((stair .off).port .lf).linkUp = true
    ∧ (({ Port.reset with jointFault := true } : Port)).jointFault = true := by decide

theorem witness_FirstJointFaultLosesTheLeg :
    (State.reset.port .lf).jointFault = false ∧ (State.reset.port .lf).linkUp = false
    ∧ ((stair .off).port .lf).jointFault = false ∧ ((stair .off).port .lf).linkUp = true
    ∧ (1 : Word).extractLsb' 0 3 ≠ 0 ∧ (7 : Word).extractLsb' 0 3 ≠ 0 := by decide

/-- RH's port with this arming. -/
def armed (a : Arming) : State := (stair .off).setPort .rh { (stair .off).port .rh with arming := a }

theorem witness_EdgesFollowTheLoad :
    ((armed .unarmed).port .rh).arming = .unarmed ∧ ((armed .forTouchdown).port .rh).arming = .forTouchdown
    ∧ ((armed .forLiftoff).port .rh).arming = .forLiftoff ∧ ((armed .forTouchdown).port .rh).slipHeld = false
    ∧ State.reset.param 2 ≤ (((⟨60, 0, false, false, 0⟩ : Report).normal.toNat : Nat) : Int)
    ∧ (((⟨59, 0, false, false, 0⟩ : Report).normal.toNat : Nat) : Int) < State.reset.param 2
    ∧ State.reset.param 3 ≤ (((⟨30, 0, false, false, 0⟩ : Report).normal.toNat : Nat) : Int)
    ∧ (((⟨29, 0, false, false, 0⟩ : Report).normal.toNat : Nat) : Int) < State.reset.param 3 := by decide

/-- RH's slip is held and its detector waits for a touchdown, with LF's slip-latched flag as given. -/
def touching (other : Bool) : State :=
  (rearming other).setPort .rh { (rearming other).port .rh with arming := .forTouchdown }

theorem witness_EdgesFollowTheLoad_held :
    ((touching true).port .rh).arming = .forTouchdown ∧ ((touching true).port .rh).slipHeld = true
    ∧ Leg.lf ≠ .rh ∧ ((touching true).leg .lf).slipLatched = true
    ∧ ((touching false).port .rh).arming = .forTouchdown ∧ ((touching false).port .rh).slipHeld = true
    ∧ ∀ m, m ≠ Leg.rh → ((touching false).leg m).slipLatched = false :=
  ⟨by decide, by decide, by decide, by decide, by decide, by decide,
    allLegs (fun _ => rfl) (fun _ => rfl) (fun _ => rfl) (fun h => absurd rfl h)⟩

/-- LH is in TOUCHDOWN after so many bounces. -/
def bounced (n : Nat) : State :=
  (stepping .touchdown .walking).setLeg .lh { (stepping .touchdown .walking).leg .lh with bounce := n }

theorem witness_LiftoffByPhase :
    ((stepping .swing .walking).leg .lh).phase = .swing
    ∧ ((bounced 0).leg .lh).phase = .touchdown ∧ ((bounced 0).leg .lh).bounce < (bounced 0).paramNat 16
    ∧ ((bounced 1).leg .lh).phase = .touchdown ∧ (bounced 1).paramNat 16 ≤ ((bounced 1).leg .lh).bounce
    ∧ ((bounced 1).leg .lh).target = some ⟨4, 0⟩ ∧ (bounced 1).slot 4 = some (grating (.target .lh) 1050 330 180)
    ∧ ((stair .walking).leg .lf).phase = .stance ∧ ((stair .walking).leg .lf).stance = some ⟨0, 0⟩
    ∧ (stair .walking).slot 0 = some (grating (.loaded .lf false) 1200 320 360)
    ∧ ((stepping .unloading .walking).leg .lh).phase = .unloading
    ∧ ((stepping .unloading .walking).leg .lh).stance = some ⟨2, 0⟩
    ∧ ((stepping .unloading .walking).leg .lh).target = some ⟨4, 0⟩
    ∧ (stepping .unloading .walking).slot 2 = some (grating (.loaded .lh false) 900 330 180)
    ∧ (let s := stepping .unloading .walking
       let left := (s.vacate 2).setLeg .lh { s.leg .lh with stance := none, phase := .swing }
       ((left.computeCurrent.composePlace .lh).leg .lh).phase = .swing) := by decide +kernel

theorem witness_PlaceVerifiesTheTarget :
    let aim := grating (.target .lh) 1050 330 180
    let s := stepping .swing .walking
    (s.leg .lh).target = some ⟨4, 0⟩ ∧ s.slot 4 = some aim ∧ aim.state = .target .lh
    ∧ checkCode (coveredWords aim.content (s.gen 4)) = aim.content.check
    ∧ ((place 4 (damaged aim) s).leg .lh).target = some ⟨4, 0⟩ ∧ (place 4 (damaged aim) s).slot 4 = some (damaged aim)
    ∧ (damaged aim).state = .target .lh
    ∧ checkCode (coveredWords (damaged aim).content (s.gen 4)) ≠ (damaged aim).content.check := by decide +kernel

theorem witness_LiftoffOfAnyStanceRecord :
    let s := stepping .unloading .walking
    let flagged := grating (.loaded .lh true) 900 330 180
    (s.leg .lh).stance = some ⟨2, 0⟩ ∧ (s.leg .lh).phase = .unloading
    ∧ s.slot 2 = some (grating (.loaded .lh false) 900 330 180)
    ∧ ((place 2 flagged s).leg .lh).stance = some ⟨2, 0⟩ ∧ ((place 2 flagged s).leg .lh).phase = .unloading
    ∧ (place 2 flagged s).slot 2 = some flagged
    ∧ ((failing .walking).leg .lf).stance = some ⟨0, 0⟩ ∧ ((failing .walking).leg .lf).phase = .stance
    ∧ (failing .walking).slot 0 = some (grating (.loaded .lf true) 1200 320 360) := by decide +kernel

/-- RH's slip is held with this re-arm timer. -/
def slipping (rearm : Timer) : State :=
  (stair .walking).setPort .rh { (stair .walking).port .rh with slipHeld := true, rearmTimer := rearm }

/-- With estimate 90 and a normal load of 190 the condition holds from a tangential load of 67 on (R81). -/
theorem slip_at_67 : ∃ h c, (stair .walking).slot h.index = some c
    ∧ ((((stair .walking).leg .rh).phase = .stance ∧ ((stair .walking).leg .rh).stance = some h)
      ∨ (((stair .walking).leg .rh).phase = .touchdown ∧ ((stair .walking).leg .rh).target = some h))
    ∧ (stair .walking).param 2 ≤ (190 : Int) ∧ c.content.friction.toNat * 190 < 67 * 256 :=
  ⟨⟨3, 0⟩, _, rfl, .inl ⟨rfl, rfl⟩, by decide, by decide⟩

theorem noSlip_at_66 : ¬∃ h c, (stair .walking).slot h.index = some c
    ∧ ((((stair .walking).leg .rh).phase = .stance ∧ ((stair .walking).leg .rh).stance = some h)
      ∨ (((stair .walking).leg .rh).phase = .touchdown ∧ ((stair .walking).leg .rh).target = some h))
    ∧ (stair .walking).param 2 ≤ (190 : Int) ∧ c.content.friction.toNat * 190 < 66 * 256 := by
  rintro ⟨h, c, hc, (⟨-, hs⟩ | ⟨-, hs⟩), -, hl⟩
  · obtain rfl : (⟨3, 0⟩ : Handle) = h := Option.some.inj hs
    obtain rfl : grating (.loaded .rh false) 900 (-40) 180 = c := Option.some.inj hc
    exact absurd hl (by decide)
  · cases hs

theorem witness_SlipFollowsTheLoads :
    ((stair .walking).port .rh).slipHeld = false ∧ ((slipping .stopped).port .rh).slipHeld = true
    ∧ ((slipping .stopped).port .rh).rearmTimer = .stopped ∧ (slipping .stopped).legs = (stair .walking).legs
    ∧ (slipping .stopped).store = (stair .walking).store ∧ ((slipping (.running 60)).port .rh).rearmTimer ≠ .stopped := by
  decide +kernel

theorem witness_SlipByPhase :
    ((stepping .swing .walking).leg .lh).phase = .swing
    ∧ ((stair .walking).leg .lf).phase = .stance ∧ ((stair .walking).leg .lf).stance = some ⟨0, 0⟩
    ∧ (stair .walking).slot 0 = some (grating (.loaded .lf false) 1200 320 360)
    ∧ ((stepping .touchdown .walking).leg .lh).phase = .touchdown
    ∧ ((stepping .touchdown .walking).leg .lh).target = some ⟨4, 0⟩
    ∧ (stepping .touchdown .walking).slot 4 = some (grating (.target .lh) 1050 330 180) := by decide +kernel

theorem witness_LossReleasesEverything :
    (State.reset.leg .lf).phase = .unseen ∧ ((stair .walking).leg .lh).phase.linked = true
    ∧ (stair .walking).seq.gait ≠ .off ∧ (⟨4, 0⟩ : Handle) ∈ (stair .walking).queue .lh
    ∧ (stair .walking).slot 4 = some (grating (.reserved .lh) 1050 330 180)
    ∧ ((stair .walking).leg .lh).stance = some ⟨2, 0⟩
    ∧ (stair .walking).slot 2 = some (grating (.loaded .lh false) 900 330 180)
    ∧ ((stepping .swing .walking).leg .lh).target = some ⟨4, 0⟩
    ∧ (stepping .swing .walking).slot 4 = some (grating (.target .lh) 1050 330 180)
    ∧ ((failing .walking).leg .lf).stance = some ⟨0, 0⟩
    ∧ (failing .walking).slot 0 = some (grating (.loaded .lf true) 1200 320 360) := by decide +kernel

theorem witness_LossTellsTheUnits :
    let s := stair .standing
    let slid := s.setLeg .lf { s.leg .lf with slipLatched := true }
    (s.leg .lh).phase.linked = true ∧ (s.legLost .lh).seq.haltReason = some .legLost
    ∧ ((stepping .swing .stopping).legLost .lh).seq.haltReason = some .legLost
    ∧ ((stair .halted).legLost .lh).seq.haltReason = (stair .halted).seq.haltReason
    ∧ (slid.leg .lf).slipLatched = true ∧ (s.leg .lf).slipLatched = false
    ∧ ((s.legLost .lh).node nodeLeg).pending = some (.leg .lh .lost .none) := by decide +kernel

/-- This hold reason set in this gait. -/
def reasoned (g : Gait) (r : HoldReasons) : State := { stair g with seq := { (stair g).seq with reasons := r } }

/-- The set with PAUSE alone. -/
def paused : HoldReasons := { HoldReasons.empty with pause := true }

theorem witness_GaitFollowsTheReasons :
    (reasoned .walking paused).seq.gait = .walking ∧ (reasoned .walking paused).seq.reasons ≠ .empty
    ∧ (reasoned .holding .empty).seq.gait = .holding ∧ (reasoned .holding .empty).seq.reasons = .empty
    ∧ (reasoned .standing paused).seq.gait ≠ .walking ∧ (reasoned .standing paused).seq.gait ≠ .holding := by decide

theorem witness_ReasonsComeAndGo :
    withReason (reasoned .walking .empty).seq.reasons .pause true ≠ (reasoned .walking .empty).seq.reasons
    ∧ withReason (reasoned .holding paused).seq.reasons .pause true = (reasoned .holding paused).seq.reasons
    ∧ (reasoned .holding paused).seq.gait = .holding ∧ (reasoned .standing paused).seq.gait = .standing
    ∧ withReason (reasoned .standing paused).seq.reasons .pause true = (reasoned .standing paused).seq.reasons := by decide

/-- The stair's stance records are sound and its margin safe, so it may stand. -/
theorem stair_fit (g : Gait) : (∀ l, ((stair g).leg l).phase = .stance) ∧ ¬StanceFailed (stair g) ∧ ¬Unbalanced (stair g) := by
  refine ⟨allLegs rfl rfl rfl rfl, ?_, ?_⟩
  · rintro ⟨l, h, r, o, hs, hr, hf⟩
    cases l
    all_goals
      obtain rfl := Option.some.inj hs
      obtain rfl := Option.some.inj hr
      cases hf
  · rintro (h | h)
    · revert h
      cases g <;> decide
    · cases h

/-- The same where a lift is pending, or a leg moves. -/
theorem failing_notFit : StanceFailed (failing .off) := ⟨.lf, ⟨0, 0⟩, _, .lf, rfl, rfl, rfl⟩

theorem stair_atRest (g : Gait) : ¬((stair g).seq.liftPending ≠ none
    ∨ ∃ l, ((stair g).leg l).phase.inFlight = true ∧ ((stair g).leg l).phase ≠ .unloading) := by
  rintro (h | ⟨l, h, -⟩)
  · exact h rfl
  · cases l <;> exact Bool.noConfusion h

/-- LH is UNLOADING and its queue is full. -/
def crowded : State := (stepping .unloading .walking).setQueue .lh [⟨5, 0⟩, ⟨6, 0⟩, ⟨7, 0⟩]

theorem crowded_unloads (l : Leg) : (crowded.leg l).phase.inFlight = true → (crowded.leg l).phase = .unloading := by
  cases l <;> decide

theorem witness_StandChangesTheGait :
    (∀ s ∈ [stair .off, failing .off, stair .standing, stair .stopping, stair .halted, stepping .swing .holding,
        stair .walking, crowded], Arrives s (head .planner) .planner ∧ s.rebasing = false)
    ∧ Client.planner ≠ .perception
    ∧ (stair .off).seq.gait = .off ∧ (∀ l, ((stair .off).leg l).phase = .stance) ∧ ¬StanceFailed (stair .off)
    ∧ ¬Unbalanced (stair .off) ∧ StanceFailed (failing .off)
    ∧ (stepping .swing .holding).seq.gait = .holding ∧ ((stepping .swing .holding).leg .lh).phase.inFlight = true
    ∧ ((stepping .swing .holding).leg .lh).phase ≠ .unloading
    ∧ ¬((stair .walking).seq.liftPending ≠ none
        ∨ ∃ l, ((stair .walking).leg l).phase.inFlight = true ∧ ((stair .walking).leg l).phase ≠ .unloading)
    ∧ (∀ l, ((stair .walking).leg l).phase = .unloading →
        ((stair .walking).leg l).target ≠ none → ((stair .walking).queue l).length < 3)
    ∧ crowded.seq.gait = .walking
    ∧ ¬(crowded.seq.liftPending ≠ none
        ∨ ∃ l, (crowded.leg l).phase.inFlight = true ∧ (crowded.leg l).phase ≠ .unloading)
    ∧ (crowded.leg .lh).phase = .unloading ∧ (crowded.leg .lh).target ≠ none ∧ 3 ≤ (crowded.queue .lh).length := by
  refine ⟨readyAll (by decide +kernel) _, by decide, rfl, (stair_fit _).1, (stair_fit _).2.1, (stair_fit _).2.2,
    failing_notFit, rfl, by decide, by decide, stair_atRest _,
    allLegs (fun h => by cases h) (fun h => by cases h) (fun h => by cases h) (fun h => by cases h), rfl, ?_, by decide,
    by decide, by decide⟩
  rintro (h | ⟨l, h, k⟩)
  · exact h rfl
  · exact k (crowded_unloads l h)

theorem witness_WalkAndPauseSelectWalking :
    (∀ s ∈ [stair .standing, stepping .swing .standing, reasoned .holding paused, stair .holding, stair .walking,
        stair .off], Arrives s (head .planner) .planner ∧ s.rebasing = false)
    ∧ (stair .standing).seq.gait = .standing ∧ (∀ l, ((stair .standing).leg l).phase = .stance)
    ∧ (stepping .swing .standing).seq.gait = .standing ∧ ¬(∀ l, ((stepping .swing .standing).leg l).phase = .stance)
    ∧ (reasoned .holding paused).seq.gait = .holding ∧ (reasoned .holding paused).seq.reasons.pause = true
    ∧ (stair .holding).seq.reasons.pause = false ∧ (stair .walking).seq.gait = .walking ∧ (stair .off).seq.gait = .off := by
  refine ⟨readyAll (by decide +kernel) _, rfl, (stair_fit _).1, rfl, fun h => ?_, rfl, rfl, rfl, rfl, rfl⟩
  exact absurd (h .lh) (by decide)

theorem witness_OffAndResumeLeaveTheGait :
    (∀ s ∈ [stepping .swing .halted, stair .standing, stair .off, stair .stopping, stair .halted, failing .halted],
      Arrives s (head .supervisor) .supervisor ∧ s.rebasing = false)
    ∧ Client.supervisor ≠ .perception
    ∧ (stepping .swing .halted).seq.gait = .halted ∧ ((stepping .swing .halted).leg .lh).phase.inFlight = true
    ∧ ¬((∃ l, ((stair .standing).leg l).phase.inFlight = true) ∨ (stair .standing).seq.liftPending ≠ none)
    ∧ (stair .halted).seq.gait = .halted ∧ (stair .halted).seq.liftPending = none
    ∧ (∀ l, ((stair .halted).leg l).phase = .stance) ∧ ¬StanceFailed (stair .halted) ∧ ¬Unbalanced (stair .halted)
    ∧ StanceFailed (failing .halted) := by
  refine ⟨readyAll (by decide +kernel) _, by decide, rfl, by decide, ?_, rfl, rfl, (stair_fit _).1, (stair_fit _).2.1,
    (stair_fit _).2.2, ⟨.lf, ⟨0, 0⟩, _, .lf, rfl, rfl, rfl⟩⟩
  rintro (⟨l, h⟩ | h)
  · cases l <;> exact Bool.noConfusion h
  · exact h rfl

theorem witness_GaitHaltHaltsAsClient :
    Arrives (stair .off) (head .planner) .planner ∧ Client.planner ≠ .perception ∧ (stair .off).seq.gait ≠ .halted
    ∧ (stair .halted).seq.gait = .halted
    ∧ clientOf everyone.client = some .planner ∧ everyone.station = 15
    ∧ (stair .off).sendingOn everyone.lane = false ∧ ∀ r, (stair .off).lanes.inFlight = some r → r.thenReset = false :=
  ⟨arrives (by rfl) _, by decide, by decide, rfl, rfl, rfl, by decide, nofun⟩

theorem witness_PatternModesRestartTheOrder :
    (∀ s ∈ [stair .off, stair .standing, stair .walking], Arrives s (head .planner) .planner ∧ s.rebasing = false)
    ∧ Client.planner ≠ .perception ∧ (stair .standing).seq.gait = .standing
    ∧ (stair .walking).seq.gait ≠ .off ∧ (stair .walking).seq.gait ≠ .standing
    ∧ Gives (.settleTimerExpiry .lh) (stepping .touchdown .walking)
        (run (.settleTimerExpiry .lh) (stepping .touchdown .walking)) :=
  ⟨readyAll (by decide +kernel) _, by decide, rfl, by decide, by decide, rfl⟩

theorem witness_HaltEntryStopsTheRobot :
    (stair .halted).seq.gait = .halted ∧ (stepping .unloading .walking).seq.gait ≠ .halted
    ∧ (stepping .unloading .walking).seq.gait ≠ .off
    ∧ ((stepping .unloading .walking).leg .lf).phase = .stance
    ∧ ((stepping .unloading .walking).leg .lh).phase = .unloading
    ∧ ((stepping .unloading .walking).port .lh).linkUp = true := by decide

theorem witness_HaltEntryStopsTheRobot_handBack :
    let s := stepping .unloading .walking
    let last := grating (.reserved .lh) 1350 340 360
    let full := place 7 last crowded
    (s.leg .lh).phase = .unloading ∧ (s.leg .lh).target = some ⟨4, 0⟩
    ∧ s.slot 4 = some (grating (.target .lh) 1050 330 180) ∧ (s.queue .lh).length < 3
    ∧ full.seq.gait ≠ .halted ∧ (full.leg .lh).phase = .unloading ∧ (full.leg .lh).target = some ⟨4, 0⟩
    ∧ full.slot 4 = some (grating (.target .lh) 1050 330 180)
    ∧ full.queue .lh = [⟨5, 0⟩, ⟨6, 0⟩, ⟨7, 0⟩] ∧ (7 : RecordIndex) ≠ 4 ∧ full.slot 7 = some last
    ∧ last.state = .reserved .lh := by decide +kernel

theorem witness_CauseIsTheEntryAndItsRecount :
    let full := place 7 (grating (.reserved .lh) 1350 340 360) crowded
    full.seq.gait ≠ .halted ∧ (full.haltEntry .client).seq.gait = .halted
    ∧ (full.leg .lh).phase = .unloading ∧ (full.leg .lh).target ≠ none ∧ 3 ≤ (full.queue .lh).length
    ∧ (stair .halted).seq.gait = .halted
    ∧ (full.haltCause .client).trips.copies.candidateCount = 2 := by decide +kernel

theorem stair_usable (g : Gait) : ∃ q rest r, (stair g).queue .lh = q :: rest ∧ (stair g).slot q.index = some r
    ∧ r.state = .reserved .lh ∧ slopePasses r.content = true
    ∧ (stair g).param 13 ≤ (r.content.confidence.toNat : Int) :=
  ⟨⟨4, 0⟩, [], grating (.reserved .lh) 1050 330 180, rfl, rfl, rfl, by decide, by cases g <;> decide⟩

theorem witness_ReadinessAsksTheNextLeg :
    let s := stair .walking
    (stair .standing).seq.gait = .standing ∧ s.seq.gait = .walking ∧ s.seq.reasons.rebase = false
    ∧ (lifting s).seq.gait = .walking ∧ (lifting s).seq.liftPending ≠ none
    ∧ ¬((∃ m, (s.leg m).phase.inFlight = true) ∨ s.seq.liftPending ≠ none ∨ (s.leg s.seq.pointer).phase ≠ .stance)
    ∧ (true = true ↔ ∃ q rest r, s.queue .lh = q :: rest ∧ s.slot q.index = some r ∧ r.state = .reserved .lh
        ∧ slopePasses r.content = true ∧ s.param 13 ≤ (r.content.confidence.toNat : Int))
    ∧ (∀ q rest r, s.queue .lh = q :: rest → s.slot q.index = some r → r.state = .reserved .lh →
        slopePasses r.content = true → s.param 13 ≤ (r.content.confidence.toNat : Int) →
        checkCode (coveredWords r.content (s.gen q.index)) = r.content.check)
    ∧ (s.computeLift .lh).seq.gait = .walking ∧ (s.computeLift .lh).bal.lift = ⟨78, .inside⟩
    ∧ s.evaluate.seq.liftPending = some .lh := by
  refine ⟨rfl, rfl, rfl, rfl, by decide, ?_, ⟨fun _ => stair_usable _, fun _ => rfl⟩, ?_, by decide +kernel,
    by decide +kernel, by decide +kernel⟩
  · rintro (⟨l, h⟩ | h | h)
    · cases l <;> exact Bool.noConfusion h
    · exact h rfl
    · exact h rfl
  · intro q rest r hq hr _ _ _
    obtain ⟨rfl, -⟩ := List.cons.inj hq
    obtain rfl : grating (.reserved .lh) 1050 330 180 = r := Option.some.inj hr
    decide +kernel

/-- A front that fails both the slope test and its check is not verified and stays (R21, R121). -/
theorem test_readiness_of_a_steep_damaged_front :
    let front := damaged (steep (grating (.reserved .lh) 1050 330 180))
    let s := place 4 front (stair .walking)
    slopePasses front.content = false ∧ checkCode (coveredWords front.content (s.gen 4)) ≠ front.content.check
    ∧ s.evaluate.slot 4 = some front ∧ s.evaluate.attn.checkFlag = false
    ∧ s.evaluate.seq.reasons = { HoldReasons.empty with noFoothold := true } := by decide +kernel

theorem witness_ReadinessAsksTheNextLeg_failingFront :
    let front := damaged (grating (.reserved .lh) 1050 330 180)
    let s := place 4 front (stair .walking)
    s.seq.gait = .walking ∧ s.seq.reasons.rebase = false
    ∧ ¬((∃ m, (s.leg m).phase.inFlight = true) ∨ s.seq.liftPending ≠ none ∨ (s.leg s.seq.pointer).phase ≠ .stance)
    ∧ s.queue .lh = [⟨4, 0⟩] ∧ s.slot 4 = some front ∧ front.state = .reserved .lh
    ∧ slopePasses front.content = true ∧ s.param 13 ≤ (front.content.confidence.toNat : Int)
    ∧ checkCode (coveredWords front.content (s.gen 4)) ≠ front.content.check
    ∧ s.evaluate.seq.reasons = { HoldReasons.empty with noFoothold := true } ∧ s.evaluate.slot 4 = none := by
  refine ⟨rfl, rfl, ?_, rfl, rfl, rfl, by decide, by decide, by decide +kernel, by decide +kernel, by decide +kernel⟩
  rintro (⟨l, h⟩ | h | h)
  · cases l <;> exact Bool.noConfusion h
  · exact h rfl
  · exact h rfl

theorem witness_ConfirmationAdvancesTheOrder :
    (stair .walking).seq.pattern = .forward ∧ Leg.lh ≠ .rf
    ∧ ({ (stair .walking).seq with pattern := .backward } : Sequencer).pattern = .backward := by decide

theorem witness_PoseIsHeldUntilItGoesStale :
    Arrives (stair .walking) (head .planner) .planner ∧ Client.planner ≠ .perception ∧ (stair .walking).rebasing = false
    ∧ Lowest 0x8000 ∧ 900 < (901 : Word).toInt ∧ (-901 : Word).toInt < -900
    ∧ ¬(Lowest 0x8001 ∨ (-900 : Word).toInt < -900 ∨ 900 < (900 : Word).toInt)
    ∧ State.reset.bal.poseTimer = .stopped ∧ (stair .walking).bal.poseTimer = .running 100 := by
  refine ⟨arrives (by rfl) _, ?_⟩
  unfold Lowest
  decide

theorem witness_EdgeDistanceRoundsDown :
    (∀ u ∈ ([1060, 150, 1210, -30, -32768, 32767] : List Int), -32768 ≤ u ∧ u ≤ 32767)
    ∧ (⟨1210, -30⟩ : Point) ≠ ⟨-32768, 32767⟩
    ∧ cross ⟨0, 0⟩ ⟨1, 300⟩ ⟨75, -100⟩ = -22600 ∧ edgeDistance ⟨75, -100⟩ ⟨0, 0⟩ ⟨1, 300⟩ = -76
    ∧ 0 < cross ⟨900, -40⟩ ⟨1210, -30⟩ ⟨1060, 150⟩ ∧ edgeDistance ⟨1060, 150⟩ ⟨900, -40⟩ ⟨1210, -30⟩ = 184 := by decide

/-- Sets of points for each way to a hull: on one line, counter-clockwise, clockwise, and of four points with each of them in
turn inside the triangle of the others, and with none inside. -/
theorem witness_MarginIsOverTheHull :
    let o : Point := ⟨0, 0⟩
    let e : Point := ⟨9, 0⟩
    let n : Point := ⟨0, 9⟩
    let i : Point := ⟨2, 2⟩
    let f : Point := ⟨9, 9⟩
    ([] : List Point).length < 3 ∧ cross o i f = 0 ∧ 0 < cross o e n ∧ cross o n e < 0
    ∧ Within i o e n ∧ ¬Within o i e n ∧ ¬Within e o i n ∧ ¬Within e i o n ∧ ¬Within n o e i
    ∧ ¬Within o e f n ∧ ¬Within e o f n ∧ ¬Within f o e n ∧ ¬Within n o e f
    ∧ (cross o e i ≠ 0 ∧ cross o e f ≠ 0)
    ∧ marginOf (some i) [o, f, e, n] = ⟨2, .inside⟩ ∧ marginOf (some i) [e, o, n, i] = ⟨2, .inside⟩ := by
  refine ⟨by decide, by decide, by decide, by decide, ⟨5, 2, 2, by decide, by decide, by decide⟩, ?_⟩
  refine ⟨?_, ?_, ?_, ?_, ?_, ?_, ?_, ?_, by decide, by decide, by decide⟩
  all_goals
    rintro ⟨a, b, c, h, hx, hy⟩
    simp only at hx hy
    omega

theorem witness_MarginIsNeverOptimistic :
    (∀ v ∈ ([⟨1060, 150⟩, ⟨900, -40⟩, ⟨1210, -30⟩, ⟨1200, 320⟩, ⟨900, 330⟩] : List Point),
      -32768 ≤ v.x ∧ v.x ≤ 32767 ∧ -32768 ≤ v.y ∧ v.y ≤ 32767)
    ∧ (∀ e ∈ ([(⟨900, -40⟩, ⟨1210, -30⟩), (⟨1210, -30⟩, ⟨1200, 320⟩), (⟨1200, 320⟩, ⟨900, 330⟩), (⟨900, 330⟩, ⟨900, -40⟩)] :
        List (Point × Point)), e.1 ≠ e.2)
    ∧ (-32768 : Int) < -32767 ∧ (-32767 : Int) ≤ 0 := by decide

/-- The stair with a CoM off the support. -/
def tipping : State := { stair .walking with bal := { (stair .walking).bal with pose := ⟨2000, 90, 0, 0⟩ } }

theorem stair_support (s : State) (h : s = stair .walking ∨ s = tipping) : ∀ l i r, s.supportOf l = some (i, r) →
    checkCode (coveredWords r.content (s.gen i)) = r.content.check := by
  intro l i r k
  rcases h with rfl | rfl <;> cases l
  all_goals
    obtain ⟨rfl, rfl⟩ := Prod.mk.inj (Option.some.inj k)
    decide +kernel

theorem witness_CurrentMarginTestsForTip :
    (rebase (some 0) State.reset).rebasing = true ∧ State.reset.bal.freshness = .none
    ∧ (State.reset.supportPoints none).length < 3 ∧ (stair .walking).rebasing = false
    ∧ (∀ l i r, (stair .walking).supportOf l = some (i, r) →
        checkCode (coveredWords r.content ((stair .walking).gen i)) = r.content.check)
    ∧ ¬(((stair .walking).marginWithout none).value.toInt < (stair .walking).param 1
        ∨ ((stair .walking).marginWithout none).cls = .degen)
    ∧ tipping.rebasing = false
    ∧ (∀ l i r, tipping.supportOf l = some (i, r) → checkCode (coveredWords r.content (tipping.gen i)) = r.content.check)
    ∧ tipping.seq.gait ≠ .off ∧ tipping.seq.gait ≠ .halted
    ∧ (tipping.marginWithout none).value.toInt < tipping.param 1 :=
  ⟨by decide, rfl, by decide, rfl, stair_support _ (.inl rfl), by decide +kernel, rfl, stair_support _ (.inr rfl),
    by decide, by decide, by decide +kernel⟩

/-- Term 2 watches PITCH at or above 300, and trip 3 is this trip. -/
def watching (t : Trip) : State :=
  { stair .walking with
    trips := { (stair .walking).trips with
      terms := (stair .walking).trips.terms.set 2 ⟨true, .pitch, .lf, .atOrAbove, 300, false⟩
      trips := (stair .walking).trips.trips.set 3 t } }

/-- A trip on term 2. -/
def onPitch (m : TripMode) (a : TripAction) (st : TripState) : Trip := ⟨m, 4, 2, 1, 10, a, st, .stopped⟩

theorem witness_TermsFollowTheirSources :
    (∀ n : Fin 4, (State.reset.trip n).state = .disarmed ∨ (State.reset.trip n).state = .fired)
    ∧ (∀ n : Fin 4, ((watching (onPitch .any .hold .fired)).trip n).state = .disarmed
        ∨ ((watching (onPitch .any .hold .fired)).trip n).state = .fired)
    ∧ Arrives (stair .walking) (head .supervisor) .supervisor
    ∧ 7 < (8 : Word).toNat ∧ 1 < (2 : Word).toNat ∧ 8 < (9 : Word).toNat ∧ 3 < (4 : Word).toNat
    ∧ (7 : Word).toNat = (7 : Fin 8).val ∧ (1 : Word).toNat = true.toNat ∧ sourceOf (8 : Word).toNat = some .slipCount
    ∧ LegWord 3 .rh ∧ (1 : Word).toNat = 1 :=
  ⟨by decide, by decide, arrives (by rfl) _, by decide, by decide, by decide, by decide, by decide, by decide, by decide,
    legWord_greatest, by decide⟩

theorem witness_TripsFireOnTheirTerms :
    (onPitch .any .hold .armed).mode ≠ .sequence ∧ (onPitch .all .halt .armed).mode ≠ .sequence
    ∧ (onPitch .sequence .hold .armed).mode = .sequence ∧ (onPitch .sequence .hold .armed).state = .armed
    ∧ (4 : BitVec 8).getLsbD (onPitch .sequence .hold .armed).first = true
    ∧ (2 : BitVec 8).getLsbD (onPitch .sequence .hold .armed).first = false
    ∧ (onPitch .sequence .hold .primed).state = .primed ∧ (onPitch .any .hold .fired).state = .fired
    ∧ ((watching (onPitch .any .attention .armed)).trip 3).action = .attention
    ∧ ((watching (onPitch .any .hold .armed)).trip 3).action = .hold
    ∧ ((watching (onPitch .any .halt .armed)).trip 3).action = .halt := by decide

theorem witness_FiringWithinAnEvaluation :
    ((watching (onPitch .any .attention .armed)).trip 3).action ≠ .hold
    ∧ ((watching (onPitch .any .halt .armed)).trip 3).action ≠ .hold
    ∧ ((watching (onPitch .any .hold .armed)).trip 3).action = .hold := by decide

theorem witness_DeliveriesTestTheTripsInOrder :
    let s := watching (onPitch .any .halt .armed)
    let full := { crowded with trips := s.trips }
    (s.deliver false .pitch .lf 300).seq.gait = .halted ∧ (s.leg .lh).phase ≠ .unloading
    ∧ full.seq.gait ≠ .halted ∧ (full.deliverOnly false .pitch .lf 300).seq.gait = .halted
    ∧ (full.leg .lh).phase = .unloading ∧ (full.leg .lh).target ≠ none ∧ 3 ≤ (full.queue .lh).length := by decide +kernel

/-- The count of candidates takes the slope and confidence tests and no check (R150). -/
theorem test_candidates_are_counted_unverified :
    (stair .off).candidateCount = 1 ∧ (place 5 (damaged (grating .candidate 0 0 0)) (stair .off)).candidateCount = 1
    ∧ (place 5 (steep (grating .candidate 0 0 0)) (stair .off)).candidateCount = 0 := by decide +kernel

/-- The words of small states, written out from the tables of 11.3 and 11.4. -/
theorem test_words :
    (stair .halted).statusWord = 0x6100 ∧ (stair .off).conditionWord = 0x000F
    ∧ marginWords (stair .off).bal = [96, 0x73F0, 0x8000, 1110, 90, 0, 0, 1]
    ∧ (gaitReport (stair .walking).seq) = [0x2020, 0, 0]
    ∧ legWords ((stair .off).leg .rf) ((stair .off).port .rf) = [0x2010, 0x0010, 0x03F0, 0, 190, 20]
    ∧ (recordWords ⟨4, 0⟩ (grating (.reserved .lh) 1050 330 180)).take 2 = [0x0040, 0x0250] := by decide +kernel

/-- Trip 3 is this trip, and terms 1 and 2 are true or false as given. -/
def truths (one two : Bool) (t : Trip) : State :=
  let s := watching t
  { s with
    trips := { s.trips with
      terms := (s.trips.terms.set 1 { s.trips.terms[1] with truth := one }).set 2 { s.trips.terms[2] with truth := two } } }

theorem witness_TripOperationsMoveTheTrip :
    let any := onPitch .any .hold .disarmed
    let all := onPitch .all .hold .fired
    let first := onPitch .sequence .hold .disarmed
    (∀ s ∈ [stair .walking, truths false false any, truths false true any, truths false true all, truths false false first,
        truths false true first, truths true true first, watching (onPitch .any .hold .armed)],
      Arrives s (head .supervisor) .supervisor ∧ s.rebasing = false)
    ∧ 3 < (4 : Word).toNat ∧ 2 < (3 : Word).toNat ∧ (3 : Word).toNat = (3 : Fin 4).val
    ∧ 7 < ((0x0800 : Word).extractLsb' 8 8).toNat ∧ (9 : Word).toNat < 10 ∧ 10000 < (10001 : Word).toNat
    ∧ tripActionOf (2 : Word).toNat = some .halt ∧ (1 : Word).toNat ≤ 1 ∧ (2 : Word).toNat = 2
    ∧ ¬(7 < ((0x0707 : Word).extractLsb' 8 8).toNat ∨ 7 < ((0x0707 : Word).extractLsb' 0 8).toNat)
    ∧ ¬((10 : Word).toNat < 10 ∨ 10000 < (10000 : Word).toNat)
    ∧ ((watching (onPitch .any .hold .armed)).trip 3).state = .armed
    ∧ ((truths false true any).trip 3).state = .disarmed ∧ ((truths false true all).trip 3).state = .fired
    ∧ (truths false true any).trips.terms[(2 : Fin 8)].truth = true ∧ any.mask.getLsbD 2 = true
    ∧ (∀ j : Fin 8, all.mask.getLsbD j.val = true → (truths false true all).trips.terms[j].truth = true)
    ∧ (¬∃ j : Fin 8, any.mask.getLsbD j.val = true ∧ (truths false false any).trips.terms[j].truth = true)
    ∧ (truths false false first).trips.terms[first.first].truth = false
    ∧ (truths false true first).trips.terms[first.first].truth = true
    ∧ (truths false true first).trips.terms[first.second].truth = false
    ∧ (truths true true first).trips.terms[first.second].truth = true
    ∧ ((watching (onPitch .sequence .hold .primed)).trip 3).state = .primed :=
  ⟨readyAll (by decide +kernel) _, by decide⟩

/-- Node 7 is pending, enabled and of priority 2; node 0 is pending, enabled, of priority 15, and the tip condition holds as
given. -/
def attentive (holds : Bool) (tip : BitVec 4) : State :=
  { stair .walking with
    attn := { (stair .walking).attn with
      nodes := ((stair .walking).attn.nodes.set 7 ⟨2, true, some (.done 0), false⟩).set 0
        ⟨tip, true, some (.tip ⟨96, .inside⟩), true⟩
      line := true
      tipHolds := holds } }

theorem witness_AttentionSetsAndVectorReads :
    let may (s : State) (n : NodeNumber) :=
      s.attn.nodes[n].pending ≠ none ∧ s.attn.nodes[n].enabled = true ∧ s.attn.nodes[n].priority ≠ 0
    let first (s : State) (n m : NodeNumber) := s.attn.nodes[m].priority < s.attn.nodes[n].priority
      ∨ (s.attn.nodes[m].priority = s.attn.nodes[n].priority ∧ n ≤ m)
    (∀ s ∈ [stair .walking, attentive true 15, attentive false 0, attentive false 2],
      Arrives s (head .supervisor) .supervisor ∧ s.rebasing = false)
    ∧ 7 < (8 : Word).toNat ∧ 15 < (16 : Word).toNat ∧ (7 : Word).toNat = (7 : NodeNumber).val
    ∧ (15 : Word).toNat = (15 : BitVec 4).toNat
    ∧ (2 : Word).getLsbD 1 = true ∧ (2 : Word).getLsbD 2 = false ∧ (4 : Word).getLsbD 1 = false ∧ (4 : Word).getLsbD 2 = true
    ∧ (6 : Word).getLsbD 1 = true ∧ (6 : Word).getLsbD 2 = true ∧ Client.supervisor ≠ .perception
    ∧ (∀ n, ¬may (stair .walking) n)
    ∧ may (attentive true 15) 0 ∧ (∀ m, may (attentive true 15) m → first (attentive true 15) 0 m)
    ∧ may (attentive false 0) 7 ∧ (∀ m, may (attentive false 0) m → first (attentive false 0) 7 m)
    ∧ may (attentive false 2) 0 ∧ (∀ m, may (attentive false 2) m → first (attentive false 2) 0 m) :=
  ⟨readyAll (by decide +kernel) _, by decide⟩

theorem witness_ClearcondClearsTheStickyFlags :
    Arrives (stair .off) (head .planner) .planner ∧ Client.planner ≠ .supervisor
    ∧ Arrives (stair .off) (head .supervisor) .supervisor
    ∧ everyone.station = 15 ∧ (stair .off).sendingOn everyone.lane = false
    ∧ ∀ r, (stair .off).lanes.inFlight = some r → r.thenReset = false :=
  ⟨arrives (by rfl) _, by decide, arrives (by rfl) _, rfl, by decide, nofun⟩

theorem witness_ParametersAndFrictionAreSet :
    Arrives (stair .off) (head .supervisor) .supervisor ∧ 17 < (18 : Word).toNat
    ∧ (17 : Word).toNat = (17 : Fin 18).val ∧ (paramRanges.getD 17 (0, 0)).2 < (5 : Word).toInt
    ∧ (-201 : Word).toInt < (paramRanges.getD 1 (0, 0)).1
    ∧ (30 : Word).toInt ≤ (stair .off).param 3 ∧ (stair .off).param 2 ≤ (60 : Word).toInt
    ∧ ¬((31 : Word).toInt < (paramRanges.getD 2 (0, 0)).1 ∨ (paramRanges.getD 2 (0, 0)).2 < (31 : Word).toInt
        ∨ (31 : Word).toInt ≤ (stair .off).param 3)
    ∧ 7 < (8 : Word).toNat ∧ 511 < (512 : Word).toNat ∧ 64 < (65 : Word).toNat
    ∧ (7 : Word).toNat = (7 : Fin 8).val ∧ (511 : Word).toNat ≤ 511 ∧ (64 : Word).toNat ≤ 64 :=
  ⟨arrives (by rfl) _, by decide⟩

theorem witness_ConfigurationHasItsWriters :
    Ordinary (.setparam (head .supervisor) 13 5) (stair .off)
    ∧ Gives (.setparam (head .supervisor) 13 5) (stair .off) (run (.setparam (head .supervisor) 13 5) (stair .off))
    ∧ Ordinary (.gaitReport (head .planner) 7) (stair .off)
    ∧ Gives (.gaitReport (head .planner) 7) (stair .off) (run (.gaitReport (head .planner) 7) (stair .off))
    ∧ touchesUnheld .lift = false ∧ (stair .off).slot 39 = none
    ∧ (stair .off).slot 5 = some (grating .candidate 1350 340 360) :=
  ⟨⟨nofun, trivial⟩, rfl, ⟨nofun, by decide⟩, rfl, rfl, by decide, rfl⟩

theorem witness_GenerationsAdvanceAtFreeAlone :
    Gives (.retire (head .planner) 0x0050) (stair .off) (run (.retire (head .planner) 0x0050) (stair .off))
    ∧ (stair .off).slot 5 ≠ none ∧ (run (.retire (head .planner) 0x0050) (stair .off)).slot 5 = none :=
  ⟨rfl, by decide, by decide +kernel⟩

theorem witness_ResetOfTheTripUnit :
    let waits (l : Lane) := sending ⟨l, [], true⟩ (stair .walking)
    TakesReset (stair .walking) (run (.powerOnReset 6) (stair .walking))
    ∧ TakesReset (waits .a) (run .responseEnd (waits .a))
    ∧ TakesReset (shutA State.reset) (run (.reset (head .supervisor)) (shutA State.reset))
    ∧ TakesReset (waits .b) (run (.margin (head .planner)) (waits .b))
    ∧ TakesReset (waits .b) (run (.malformedFrame .a 0x61C0 [] (checkCode [0x61C0])) (waits .b)) :=
  ⟨.inl ⟨6, rfl⟩, .inr (.inl ⟨_, rfl, rfl, rfl⟩), .inr (.inr (.inl ⟨head .supervisor, arrives_shutA, by decide, rfl⟩)),
    .inr (.inr (.inr (.inl ⟨.margin (head .planner), head .planner, 19, [], _, rfl, rfl, rfl, by decide,
      .inr ⟨rfl, by decide⟩, rfl⟩))),
    .inr (.inr (.inr (.inr ⟨_, .a, 0x61C0, [], _, .inl rfl, rfl, rfl, by decide, .inr ⟨by decide, by decide⟩, rfl⟩)))⟩

/-- The stair in front of this command. -/
def before (c : Instr) (s : State) : State := { s with pending := [c] }

theorem witness_AttnLineFollowsTheNodes :
    Safety.lineLaw (attentive true 15) = true ∧ step (before (.vector (head .planner)) (attentive true 15))
        = .next (run (.vector (head .planner)) (attentive true 15))
    ∧ (State.reset.node 7).enabled = false
    ∧ Arrives (attentive false 0) (head .supervisor) .supervisor ∧ (0 : Word).toNat = (0 : NodeNumber).val
    ∧ 1 ≤ (1 : Word).toNat ∧ (15 : Word).toNat ≤ 15 ∧ ((attentive false 0).node 0).pending ≠ none
    ∧ Gives (.attention (head .supervisor) 0 1 1) (attentive false 0)
        (run (.attention (head .supervisor) 0 1 1) (attentive false 0)) :=
  ⟨by decide, rfl, by decide, arrives (by rfl) _, by decide, by decide, by decide, by decide, rfl⟩

theorem witness_MoreFlagNeedsAPendingNode :
    Safety.moreLaw (attentive false 2) = true ∧ step (before (.vector (head .planner)) (attentive false 2))
        = .next (run (.vector (head .planner)) (attentive false 2)) := ⟨by decide, rfl⟩

theorem witness_GaitLawsAreKept :
    Safety.haltLaw (stair .walking) = true ∧ Safety.walkLaw (stair .walking) = true
    ∧ step (before (.gaitPause (head .planner)) (stair .walking)) = .next (run (.gaitPause (head .planner)) (stair .walking)) :=
  ⟨by decide, by decide, rfl⟩

theorem witness_DownLinksHoldNothing :
    Safety.downLaw (stair .walking) = true
    ∧ step (before (.relink (head .supervisor) 2) (stair .walking)) = .next (run (.relink (head .supervisor) 2) (stair .walking)) :=
  ⟨by decide, rfl⟩

theorem stair_held : ∀ i : RecordIndex,
    (match (stair .walking).slot i with
      | some r =>
        match r.state with
        | .reserved l => decide ((stair .walking).handleOf i ∈ (stair .walking).queue l)
        | .loaded l _ => decide (((stair .walking).leg l).stance = some ((stair .walking).handleOf i))
        | .target l => decide (((stair .walking).leg l).target = some ((stair .walking).handleOf i))
        | _ => true
      | none => true) = true := by decide +kernel

theorem witness_EveryRecordHasItsHolder :
    Safety.HolderLaw (stair .walking)
    ∧ step (before (.cancel (head .planner) 0x0040) (stair .walking))
        = .next (run (.cancel (head .planner) 0x0040) (stair .walking)) := by
  refine ⟨?_, rfl⟩
  constructor
  · exact allLegs (by decide) (by decide) (by decide) (by decide)
  · exact allLegs (by decide) (by decide) (by decide) (by decide)
  · intro l h m
    cases l
    case lh =>
      obtain rfl : h = ⟨4, 0⟩ := List.mem_singleton.mp m
      exact ⟨rfl, _, rfl, rfl⟩
    all_goals cases m
  · intro l h m
    cases l
    all_goals
      obtain rfl := Option.some.inj m
      exact ⟨rfl, _, _, rfl, rfl⟩
  · intro l h m
    cases l <;> cases m
  · intro i r l h e
    have k := stair_held i
    rw [h] at k
    simp only [e] at k
    exact of_decide_eq_true k
  · intro i r l f h e
    have k := stair_held i
    rw [h] at k
    simp only [e] at k
    exact of_decide_eq_true k
  · intro i r l h e
    have k := stair_held i
    rw [h] at k
    simp only [e] at k
    exact of_decide_eq_true k
  · exact allLegs rfl rfl rfl rfl
  · exact allLegs rfl rfl rfl rfl

theorem witness_SeekingLegTakesItsFront :
    let front := grating (.reserved .lh) 1050 330 180
    let s := seeking .walking front
    ((seeking .off front).leg .lh).phase = .seeking ∧ (seeking .off front).seq.gait = .off
    ∧ (rebase (some 0) s).rebasing = true
    ∧ (s.leg .lh).phase = .seeking ∧ s.seq.gait ≠ .off ∧ s.rebasing = false ∧ (s.setQueue .lh []).queue .lh = []
    ∧ s.queue .lh = [⟨4, 0⟩, ⟨5, 0⟩] ∧ s.slot 4 = some front ∧ front.state = .reserved .lh
    ∧ slopePasses front.content = true ∧ s.param 13 ≤ (front.content.confidence.toNat : Int)
    ∧ checkCode (coveredWords front.content (s.gen 4)) = front.content.check
    ∧ (seeking .walking (steep front)).slot 4 = some (steep front) ∧ slopePasses (steep front).content = false
    ∧ (seeking .walking (damaged front)).slot 4 = some (damaged front)
    ∧ checkCode (coveredWords (damaged front).content (s.gen 4)) ≠ (damaged front).content.check
    ∧ (((seeking .walking (damaged front)).setQueue .lh [⟨4, 0⟩]).seek .lh).newFronts.get .lh = false := by
  decide +kernel

theorem witness_QueueChangesAreReported :
    let front := grating (.reserved .lh) 1050 330 180
    let s := seeking .walking front
    s.seq.gait = .walking ∧ s.seq.pointer = .lh ∧ (stair .off).seq.gait = .off
    ∧ (s.seek .lh).queue .lh ≠ s.queue .lh
    ∧ ((seeking .off front).seek .lh).queue .lh = (seeking .off front).queue .lh
    ∧ (((stair .walking).reportToSequencer .lf).leg .lf).phase ≠ .seeking
    ∧ ((s.reportToSequencer .lh).leg .lh).phase = .seeking ∧ (s.reportToSequencer .lh).seq.gait ≠ .off
    ∧ (((seeking .off front).reportToSequencer .lh).leg .lh).phase = .seeking
    ∧ ((seeking .off front).reportToSequencer .lh).seq.gait = .off
    ∧ s.queue .lh ≠ [] ∧ (s.queue .lh).head? ≠ ([] : List Handle).head? ∧ (s.queue .lh).head? = [⟨4, 0⟩].head? := by
  decide +kernel

/-- A report of a new front waits for these legs. -/
def heralded (p : PerLeg Bool) (s : State) : State := { s with newFronts := p }

theorem witness_WaitingReportsComeInTheirOwnEvent :
    let front := grating (.reserved .lh) 1050 330 180
    let s := heralded ⟨false, false, true, true⟩ (seeking .walking front)
    let off := heralded ⟨false, false, true, false⟩ (seeking .off front)
    s.pending = [] ∧ s.newFronts.get .lh = true ∧ (∀ m, m.number < Leg.lh.number → s.newFronts.get m = false)
    ∧ (s.leg .lh).phase = .seeking ∧ s.queue .lh ≠ [] ∧ s.seq.gait ≠ .off
    ∧ (s.setQueue .lh []).queue .lh = [] ∧ off.newFronts.get .lh = true ∧ off.seq.gait = .off
    ∧ (off.leg .lh).phase = .seeking ∧ ((heralded ⟨true, false, false, false⟩ (stair .off)).leg .lf).phase ≠ .seeking := by
  refine ⟨rfl, rfl, ?_, by decide +kernel⟩
  intro m h
  cases m <;> first | rfl | exact absurd h (by decide)

/-- The stair on which LF's stance record fails its check. -/
def unsound : State := place 0 (damaged (grating (.loaded .lf false) 1200 320 360)) (stair .walking)

theorem witness_MarginsVerifyTheirSupport :
    unsound.rebasing = false ∧ MemberFails none unsound .lf ∧ MemberFails (some .lh) unsound .lf
    ∧ (∀ l, ¬MemberFails none (stair .walking) l) ∧ (∀ l, ¬MemberFails (some .lh) (stair .walking) l)
    ∧ unsound.computeCurrent.seq.haltReason = some .check ∧ (unsound.computeLift .lh).bal.lift = ⟨0x8000, .degen⟩ := by
  have sound : ∀ k l, ¬MemberFails k (stair .walking) l := by
    rintro k l ⟨-, i, r, h, e⟩
    exact e (stair_support _ (.inl rfl) l i r h)
  have fails : unsound.supportOf .lf = some (0, damaged (grating (.loaded .lf false) 1200 320 360)) := by rfl
  exact ⟨rfl, ⟨nofun, _, _, fails, by decide +kernel⟩, ⟨by decide, _, _, fails, by decide +kernel⟩, sound _, sound _,
    by decide +kernel, by decide +kernel⟩

end Sys2Proof.Tests
end

section
/-! SUPPORT. The arrival of a client's frame at this station as the statements write it: the state handed to the owner is
noted, the response is answered (R174, R176, R179, R180). -/

namespace Sys2Proof.Machine

open Claims

variable {s t u : State} {h : FrameHead} {c : Client} {code : BitVec 6} {data : List Word}
  {effect : Client → State → Effect}

/-- A client role is named by no header whose client field is 0 (R174). -/
theorem client_ne_zero (hc : clientOf h.client = some c) : h.client ≠ 0#2 := by
  intro hz
  rw [hz] at hc
  cases hc

/-- A frame of a client, with the data count of its code, is well formed unless it is broadcast without leave (R175). -/
theorem malformedForm_eq_false (hc : clientOf h.client = some c) (hn : commandCount code = some data.length)
    (hl : data.length < 16) (hb : isBroadcast h = true → mayBroadcast code data = true) :
    malformedForm h code (BitVec.ofNat 4 data.length) data = false := by
  have hmod : data.length % 16 = data.length := Nat.mod_eq_of_lt hl
  simpa [malformedForm, client_ne_zero hc, hn, hmod] using hb

theorem isBroadcast_iff : isBroadcast h = true ↔ h.station = 15 := by simp [isBroadcast, broadcastStation]

theorem not_isBroadcast (hs : h.station ≠ 15) : isBroadcast h = false := by
  rw [← Bool.not_eq_true, isBroadcast_iff]
  exact hs

/-- An addressed command's part at the lane interface leaves the state that the statements call noted. -/
theorem State.noteCommand_eq_noted (count : BitVec 4) (hr : isReading code = false) (hs : h.station ≠ 15) :
    (({ s with ordersSent := [] } : State).setLanes { s.lanes with inFlight := none }).noteCommand h code count
      = noted s h code count := by
  simp [State.noteCommand, hr, not_isBroadcast hs, State.setLanes, noted]

/-- A broadcast command's part is the same with the BROADCAST flag set (R176). -/
theorem State.noteCommand_broadcast (count : BitVec 4) (hr : isReading code = false) (hs : h.station = 15) :
    (({ s with ordersSent := [] } : State).setLanes { s.lanes with inFlight := none }).noteCommand h code count
      = { noted s h code count with lanes := { (noted s h code count).lanes with broadcast := true } } := by
  simp [State.noteCommand, hr, isBroadcast_iff.2 hs, State.setLanes, noted]

theorem State.respond_eq_answered (r : Result) (words : List Word) :
    s.respond h code ⟨r, words, false⟩ = answered s h code r words := by
  simp [State.respond, answered, State.responseWords, State.setLanes]

theorem addressed_of_arrives (ha : Arrives s h c) : s.addressed h = true := by
  have hs : s.lanes.station ≠ 0#4 := ha.speaks
  simp [State.addressed, ha.station, hs]

/-- A frame addressed to this station alone is answered: the owner's effect on the noted state, then the response. -/
theorem frameEvent_answered {r : Result} {words : List Word} (ha : Arrives s h c) (hr : isReading code = false)
    (hn : commandCount code = some data.length) (hl : data.length < 16)
    (he : effect c (noted s h code (BitVec.ofNat 4 data.length)) = (⟨r, words, false⟩, t)) :
    frameEvent s h code data effect = .next (answered t h code r words) := by
  have hb : isBroadcast h = false := not_isBroadcast ha.single
  have hm := malformedForm_eq_false ha.client hn hl (by simp [hb])
  rw [frameEvent_valid ha.quiet (addressed_of_arrives ha) ha.settled ha.client hm]
  simp only [State.takeCommand, State.noteCommand_eq_noted _ hr ha.single, he, hb, Bool.false_eq_true, if_false,
    State.respond_eq_answered]

/-- A broadcast frame that may be broadcast takes its owner's effect and is not answered (R176). -/
theorem frameEvent_broadcast (hc : clientOf h.client = some c) (hs : h.station = 15)
    (hq : s.sendingOn h.lane = false) (hf : ∀ r, s.lanes.inFlight = some r → r.thenReset = false)
    (hr : isReading code = false) (hn : commandCount code = some data.length) (hl : data.length < 16)
    (hm : mayBroadcast code data = true) :
    frameEvent s h code data effect =
      .next (effect c { noted s h code (BitVec.ofNat 4 data.length) with
        lanes := { (noted s h code (BitVec.ofNat 4 data.length)).lanes with broadcast := true } }).2 := by
  have hb : isBroadcast h = true := isBroadcast_iff.2 hs
  have ha : s.addressed h = true := by simp [State.addressed, hb]
  rw [frameEvent_valid hq ha hf hc (malformedForm_eq_false hc hn hl fun _ => hm)]
  simp only [State.takeCommand, State.noteCommand_broadcast _ hr hs, hb, if_true]

/-! ### GAIT by permitted clients (R123, R124) -/

theorem gaitPermitted_of_ne (hc : c ≠ .perception) (body : Effect) : gaitPermitted c s body = body := by
  cases c with
  | perception => exact absurd rfl hc
  | planner | supervisor => rfl

/-- A GAIT frame of a permitted client, addressed to this station alone, is answered with the gait report. -/
theorem gaitFrame_answered {mode : Word} {body : State → Effect} {r : Result} (ha : Arrives s h c)
    (hc : c ≠ .perception) (he : body (noted s h 16 1) = gaitAnswer t r) :
    frameEvent s h 16 [mode] (fun c s => gaitPermitted c s (body s)) = .next (gaitAnswered t h 16 r) :=
  frameEvent_answered ha rfl rfl (by decide : 1 < 16) ((gaitPermitted_of_ne hc _).trans he)

/-- FORWARD and BACKWARD in OFF and STANDING name the pattern and restart the order (R116). -/
theorem patternEffect_named (p : Pattern) (h : s.seq.gait = .off ∨ s.seq.gait = .standing) :
    patternEffect p s = gaitAnswer (s.setSeq { s.seq with pattern := p, pointer := p.first }) .done := by
  rcases h with h | h <;> simp only [patternEffect, h]

theorem patternEffect_refused (p : Pattern) (hoff : s.seq.gait ≠ .off) (hst : s.seq.gait ≠ .standing) :
    patternEffect p s = gaitAnswer s .wrongState := by
  unfold patternEffect
  split
  · exact absurd ‹_› hoff
  · exact absurd ‹_› hst
  all_goals rfl

end Sys2Proof.Machine
end

section
/-! SUPPORT. The entry to HALTED (R127): what the sequencer holds after a halt cause, and the status word's BROADCAST
flag (R168). -/

namespace Sys2Proof.Machine

variable {s t : State}

theorem State.haltCause_of_halted (c : HaltCause) (h : s.seq.gait = .halted) : s.haltCause c = s := by
  simp [State.haltCause, State.haltEntry, State.recountOverflow, h]

/-- A HALTED sequencer with this reason. -/
def State.HaltedBy (s : State) (c : HaltCause) : Prop := s.seq.gait = .halted ∧ s.seq.haltReason = some c

/-- No cascade leaves HALTED or replaces the first halt reason (R127). -/
theorem Calm.haltedBy {c : HaltCause} (h : Calm .plain s t) (hs : s.HaltedBy c) : t.HaltedBy c :=
  ⟨(h.seq.halted hs.1).1, (h.seq.halted hs.1).2.trans hs.2⟩

theorem State.HaltedBy.foldl {c : HaltCause} {f : State → Leg → State} (h : s.HaltedBy c)
    (hf : ∀ {s : State} (l : Leg), Calm .plain s (f s l)) (ls : List Leg) : (ls.foldl f s).HaltedBy c :=
  (Calm.foldl (fun _ l => hf l) ls s).haltedBy h

/-- A halt cause that applies in this gait enters HALTED with itself as the reason (R127). -/
theorem State.haltEntry_haltedBy {c : HaltCause} (h : s.seq.gait ≠ .halted) (ha : c.applies s.seq.gait = true) :
    (s.haltEntry c).HaltedBy c := by
  have entered : ((s.leaveTo .halted).setSeq { (s.leaveTo .halted).seq with haltReason := some c }).HaltedBy c :=
    ⟨rfl, rfl⟩
  rw [State.haltEntry, if_neg (by simp [h, ha])]
  dsimp only
  generalize (s.leaveTo .halted).setSeq { (s.leaveTo .halted).seq with haltReason := some c } = a at entered ⊢
  have withdrawn := entered.foldl withdrawLift_calm Leg.all
  generalize Leg.all.foldl State.withdrawLift a = b at withdrawn ⊢
  have braced := withdrawn.foldl braceStance_calm Leg.all
  generalize Leg.all.foldl State.braceStance b = d at braced ⊢
  have ended : State.HaltedBy { d with attn := { d.attn with tipHolds := false } } c := braced
  generalize ({ d with attn := { d.attn with tipHolds := false } } : State) = e at ended ⊢
  have noted := (State.pend_calm nodeGait (.gaitHalted c)).haltedBy ended
  generalize e.pend nodeGait (.gaitHalted c) = u at noted ⊢
  split
  · exact noted.foldl seek_calm Leg.all
  · exact noted

theorem State.haltCause_haltedBy {c : HaltCause} (h : s.seq.gait ≠ .halted) (ha : c.applies s.seq.gait = true) :
    (s.haltCause c).HaltedBy c :=
  Calm.haltedBy (State.recountOverflow_calm s (Calm.refl _ _)) (State.haltEntry_haltedBy h ha)

theorem State.haltCause_lanes (c : HaltCause) : (s.haltCause c).lanes = s.lanes :=
  (State.haltCause_calm (k := .plain) c).lanes

/-- BROADCAST is bit 6 of the status word (R168, 11.2). -/
theorem State.statusWord_broadcast : s.statusWord.getLsbD 6 = s.lanes.broadcast := by
  simp only [State.statusWord, bit, BitVec.getLsbD_append]
  simp

end Sys2Proof.Machine
end

section
/-! SUPPORT. The order pointer over a whole event (R116, R117): no frame moves it but by its owner's effect, and no other
event moves it but a stance confirmation and a reset. -/

namespace Sys2Proof.Machine

open Claims

variable {s t : State} {h : FrameHead} {code : BitVec 6} {data : List Word} {effect : Client → State → Effect}

/-- The order pointer is as it was, or the sequencer has been reset. -/
def KeepsOrder (s t : State) : Prop :=
  t.seq.pointer = s.seq.pointer ∨ ∃ straps, t.seq = (State.resetWith straps).seq

theorem Mild.pointer_eq {w : Writes} (hm : Mild w s t) (hp : w.pattern = false := by rfl)
    (ha : w.adv = false := by rfl) : t.seq.pointer = s.seq.pointer := hm.pointer hp ha

theorem Calm.pointer_eq {k : Scope} (hc : Calm k s t) (ha : k.adv = false := by rfl) :
    t.seq.pointer = s.seq.pointer := hc.seq.pointer ha

theorem State.takeReset_keepsOrder (straps : BitVec 4) : KeepsOrder t (s.takeReset straps) := .inr ⟨straps, rfl⟩

theorem State.respond_keepsOrder (r : Reply) : KeepsOrder s (s.respond h code r) := by
  unfold State.respond
  split
  · split
    · exact takeReset_keepsOrder _
    · exact .inl rfl
  · exact .inl rfl

theorem State.noteCommand_seq (count : BitVec 4) : (s.noteCommand h code count).seq = s.seq := by
  unfold noteCommand
  split <;> rfl

/-- A valid command moves the pointer by its owner's effect alone. -/
theorem State.takeCommand_keepsOrder {count : BitVec 4} {body : State → Effect}
    (he : ∀ u, (body u).2.seq.pointer = u.seq.pointer) : KeepsOrder s (s.takeCommand h code count body) := by
  have hb : (body (s.noteCommand h code count)).2.seq.pointer = s.seq.pointer := by rw [he, noteCommand_seq]
  unfold State.takeCommand
  dsimp only
  split
  · exact .inl hb
  · exact (respond_keepsOrder _).imp_left fun hr => hr.trans hb

/-- A frame moves the pointer by its owner's effect alone, or cuts a RESET's response (R174, R183). -/
theorem State.arrive_keepsOrder {count : BitVec 4} (he : ∀ c u, (effect c u).2.seq.pointer = u.seq.pointer) :
    KeepsOrder s (s.arrive h code count data effect) := by
  cases hs : s.sendingOn h.lane with
  | true => exact .inl (by rw [arrive_sending hs])
  | false =>
    cases ha : s.addressed h with
    | false => exact .inl (by rw [arrive_elsewhere hs ha])
    | true =>
      by_cases hf : ∀ r, s.lanes.inFlight = some r → r.thenReset = false
      · rw [arrive_cut hs ha hf]
        dsimp only
        split
        · exact .inl rfl
        · split
          · exact .inl rfl
          · exact takeCommand_keepsOrder (s := s.setLanes _) (he _)
      · push Not at hf
        obtain ⟨r, hr, ht⟩ := hf
        rw [arrive_reset hs ha hr (Bool.eq_true_of_not_eq_false ht)]
        exact takeReset_keepsOrder _

theorem frameEvent_keepsOrder (he : ∀ c u, (effect c u).2.seq.pointer = u.seq.pointer)
    (hg : frameEvent s h code data effect = .next t) : KeepsOrder s t := by
  obtain rfl := Host.Outcome.next.inj hg
  exact State.arrive_keepsOrder (s := { s with ordersSent := [] }) he

theorem event_keepsOrder {f : State → State} (hf : ∀ u, KeepsOrder u (f u)) (hg : event s f = .next t) :
    KeepsOrder s t := by
  obtain rfl := Host.Outcome.next.inj hg
  exact hf { s with ordersSent := [] }

/-! ### Effects and events that Laws/Effects.lean leaves to their parts -/

theorem takeTrip_pointer (trip operation mode action terms window : Word) (c : Client) :
    (takeTrip trip operation mode action terms window c s).2.seq.pointer = s.seq.pointer := by
  unfold takeTrip permitted
  split
  · split
    · rfl
    · split
      · exact (configureEffect_mild _ _ _ _ _).pointer_eq
      · exact (armEffect_mild _).pointer_eq
      · exact (disarmEffect_mild _).pointer_eq
      · rfl
  · rfl

/-- GAIT with a mode other than FORWARD and BACKWARD names no pattern (R116). -/
theorem takeGait_pointer {mode : Word} (h5 : mode ≠ 5) (h6 : mode ≠ 6) (c : Client) :
    (takeGait mode c s).2.seq.pointer = s.seq.pointer := by
  refine (gaitPermitted_mild (w := {}) ?_).pointer_eq
  unfold gaitEffect
  split
  · exact standEffect_mild
  · exact walkEffect_mild
  · exact pauseEffect_mild
  · exact offEffect_mild
  · exact haltEffect_mild
  · exact absurd (BitVec.eq_of_toNat_eq ‹_›) h5
  · exact absurd (BitVec.eq_of_toNat_eq ‹_›) h6
  · exact .refl _ _
  · exact .refl _ _

/-- The scope of a port's own event. -/
def Scope.ofPort : Scope := ⟨false, false, true⟩

theorem State.takeReport_pointer (l : Leg) (flags normal tangential check : Word) :
    (s.takeReport l flags normal tangential check).seq.pointer = s.seq.pointer := by
  unfold State.takeReport
  split
  · exact (goodReport_calm (k := .ofPort) l _ _ rfl).pointer_eq
  · rfl

theorem execResponseEnd_keepsOrder (hg : execResponseEnd s = .next t) : KeepsOrder s t := by
  refine event_keepsOrder (fun u => ?_) hg
  split
  · exact .inl rfl
  · exact u.takeReset_keepsOrder _
  · exact .inl rfl

theorem execLift_keepsOrder (hg : execLift s = .next t) : KeepsOrder s t := by
  refine event_keepsOrder (fun u => .inl ?_) hg
  split
  · rfl
  · split
    · rfl
    · exact (State.takeLift_calm (k := .plain) _).pointer_eq

theorem execRebaseWalkCompletion_keepsOrder (hg : execRebaseWalkCompletion s = .next t) : KeepsOrder s t := by
  refine event_keepsOrder (fun u => .inl ?_) hg
  split
  · rfl
  · split
    · exact (State.completeWalk_mild _).pointer_eq
    · rfl

theorem execDescentTimerExpiry_keepsOrder (l : Leg) (hg : execDescentTimerExpiry l s = .next t) : KeepsOrder s t := by
  refine event_keepsOrder (fun u => .inl ?_) hg
  split
  · exact (State.missVoid_calm (k := .plain) l).pointer_eq
  · rfl

theorem execSwingTimerExpiry_keepsOrder (l : Leg) (hg : execSwingTimerExpiry l s = .next t) : KeepsOrder s t := by
  refine event_keepsOrder (fun u => .inl ?_) hg
  split
  · exact (Calm.trans (k := .plain) (Calm.setLeg l _) (State.haltCause_calm _)).pointer_eq
  · rfl

theorem execPoseTimerExpiry_keepsOrder (hg : execPoseTimerExpiry s = .next t) : KeepsOrder s t := by
  refine event_keepsOrder (fun u => .inl ?_) hg
  split
  · exact State.poseExpiry_mild.pointer_eq
  · rfl

theorem execTripWindowExpiry_keepsOrder (n : Fin 4) (hg : execTripWindowExpiry n s = .next t) : KeepsOrder s t := by
  refine event_keepsOrder (fun u => .inl ?_) hg
  split <;> rfl

/-- The commands and events that may move the order pointer without a reset. -/
def MayMovePointer : Instr → Prop
  | .gaitForward _ | .gaitBackward _ | .settleTimerExpiry _ | .commandFrameCheckFailure .. | .frameForOtherStation ..
  | .malformedFrame .. => True
  | .gaitReport _ mode => mode = 5 ∨ mode = 6
  | _ => False

/-- A command or event that may move the pointer is one of those the statement names. -/
theorem mayMovePointer_cases {i : Instr} (hi : MayMovePointer i) :
    (∃ h, i = .gaitForward h ∨ i = .gaitBackward h ∨ i = .gaitReport h 5 ∨ i = .gaitReport h 6)
    ∨ (∃ l, i = .settleTimerExpiry l)
    ∨ ∃ l w d k, i = .commandFrameCheckFailure l w d k ∨ i = .frameForOtherStation l w d k
        ∨ i = .malformedFrame l w d k := by
  unfold MayMovePointer at hi
  split at hi
  · exact .inl ⟨_, .inl rfl⟩
  · exact .inl ⟨_, .inr (.inl rfl)⟩
  · exact .inr (.inl ⟨_, rfl⟩)
  · exact .inr (.inr ⟨_, _, _, _, .inl rfl⟩)
  · exact .inr (.inr ⟨_, _, _, _, .inr (.inl rfl)⟩)
  · exact .inr (.inr ⟨_, _, _, _, .inr (.inr rfl)⟩)
  · rcases hi with rfl | rfl
    · exact .inl ⟨_, .inr (.inr (.inl rfl))⟩
    · exact .inl ⟨_, .inr (.inr (.inr rfl))⟩
  · exact hi.elim

/-- Every other command and event leaves the order pointer as it was or resets the sequencer. -/
theorem exec_keepsOrder {i : Instr} (hi : ¬MayMovePointer i) (hg : Gives i s t) : KeepsOrder s t := by
  cases i with
  | submit h x y z k => exact frameEvent_keepsOrder (fun c _ => (takeSubmit_mild x y z k c).pointer_eq) hg
  | amend h a m x y z k => exact frameEvent_keepsOrder (fun c _ => (takeAmend_mild a m x y z k c).pointer_eq) hg
  | query h a => exact frameEvent_keepsOrder (fun c _ => (takeQuery_mild a c).pointer_eq) hg
  | find h x y r m => exact frameEvent_keepsOrder (fun c _ => (takeFind_mild x y r m c).pointer_eq) hg
  | retire h a => exact frameEvent_keepsOrder (fun c _ => (takeRetire_mild a c).pointer_eq) hg
  | restore h a x y z k f => exact frameEvent_keepsOrder (fun c _ => (takeRestore_mild a x y z k f c).pointer_eq) hg
  | rebase h dx dy dz => exact frameEvent_keepsOrder (fun c _ => (takeRebase_mild dx dy dz c).pointer_eq) hg
  | reserve h l a => exact frameEvent_keepsOrder (fun c _ => (takeReserve_mild l a c).pointer_eq) hg
  | cancel h a => exact frameEvent_keepsOrder (fun c _ => (takeCancel_mild a c).pointer_eq) hg
  | queue h l => exact frameEvent_keepsOrder (fun c _ => (takeQueue_mild l c).pointer_eq) hg
  | adopt h l a => exact frameEvent_keepsOrder (fun c _ => (takeAdopt_mild l a c).pointer_eq) hg
  | redirect h l => exact frameEvent_keepsOrder (fun c _ => (takeRedirect_mild l c).pointer_eq) hg
  | legstate h l => exact frameEvent_keepsOrder (fun c _ => (takeLegstate_mild l c).pointer_eq) hg
  | relink h l => exact frameEvent_keepsOrder (fun c _ => (takeRelink_mild l c).pointer_eq) hg
  | gaitStand h => exact frameEvent_keepsOrder (fun _ _ => (gaitPermitted_mild standEffect_mild).pointer_eq) hg
  | gaitWalk h => exact frameEvent_keepsOrder (fun _ _ => (gaitPermitted_mild walkEffect_mild).pointer_eq) hg
  | gaitPause h => exact frameEvent_keepsOrder (fun _ _ => (gaitPermitted_mild pauseEffect_mild).pointer_eq) hg
  | gaitOff h => exact frameEvent_keepsOrder (fun _ _ => (gaitPermitted_mild offEffect_mild).pointer_eq) hg
  | gaitHalt h => exact frameEvent_keepsOrder (fun _ _ => (gaitPermitted_mild haltEffect_mild).pointer_eq) hg
  | gaitForward h | gaitBackward h => exact absurd trivial hi
  | gaitReport h mode =>
    exact frameEvent_keepsOrder (fun c _ => takeGait_pointer (hi ∘ .inl) (hi ∘ .inr) c) hg
  | resume h => exact frameEvent_keepsOrder (fun c _ => (takeResume_mild c).pointer_eq) hg
  | pose h x y p r => exact frameEvent_keepsOrder (fun c _ => (takePose_mild x y p r c).pointer_eq) hg
  | margin h => exact frameEvent_keepsOrder (fun c _ => (takeMargin_mild c).pointer_eq) hg
  | term h n e src l r k => exact frameEvent_keepsOrder (fun c _ => (takeTerm_mild n e src l r k c).pointer_eq) hg
  | tripConfigure h n o m a k w => exact frameEvent_keepsOrder (fun c _ => takeTrip_pointer n o m a k w c) hg
  | tripArm h n m a k w => exact frameEvent_keepsOrder (fun c _ => takeTrip_pointer n 1 m a k w c) hg
  | tripDisarm h n m a k w => exact frameEvent_keepsOrder (fun c _ => takeTrip_pointer n 2 m a k w c) hg
  | tripstate h => exact frameEvent_keepsOrder (fun c _ => (takeTripstate_mild c).pointer_eq) hg
  | attention h n p f => exact frameEvent_keepsOrder (fun c _ => (takeAttention_mild n p f c).pointer_eq) hg
  | vector h => exact frameEvent_keepsOrder (fun c _ => (takeVector_mild c).pointer_eq) hg
  | condition h => exact frameEvent_keepsOrder (fun c _ => (takeCondition_mild c).pointer_eq) hg
  | clearcond h => exact frameEvent_keepsOrder (fun c _ => (takeClearcond_mild c).pointer_eq) hg
  | status h => exact frameEvent_keepsOrder (fun c _ => (takeStatus_mild c).pointer_eq) hg
  | lastcmd h => exact frameEvent_keepsOrder (fun c _ => (takeLastcmd_mild c).pointer_eq) hg
  | laneShut h l o => exact frameEvent_keepsOrder (fun c _ => (takeLane_mild h.lane l o c).pointer_eq) hg
  | laneOpen h l => exact frameEvent_keepsOrder (fun c _ => (takeLane_mild h.lane l 1 c).pointer_eq) hg
  | reset h => exact frameEvent_keepsOrder (fun c _ => (takeResetCommand_mild c).pointer_eq) hg
  | setparam h p v => exact frameEvent_keepsOrder (fun c _ => (takeSetparam_mild p v c).pointer_eq) hg
  | getparam h p => exact frameEvent_keepsOrder (fun c _ => (takeGetparam_mild p c).pointer_eq) hg
  | friction h k f d => exact frameEvent_keepsOrder (fun c _ => (takeFriction_mild k f d c).pointer_eq) hg
  | getfriction h k => exact frameEvent_keepsOrder (fun c _ => (takeGetfriction_mild k c).pointer_eq) hg
  | commandFrameCheckFailure | frameForOtherStation | malformedFrame => exact absurd trivial hi
  | responseEnd => exact execResponseEnd_keepsOrder hg
  | powerOnReset straps => exact event_keepsOrder (fun u => u.takeReset_keepsOrder straps) hg
  | contactReport l f n w k => exact event_keepsOrder (fun u => .inl (u.takeReport_pointer l f n w k)) hg
  | echoTimerExpiry l =>
    exact event_keepsOrder (fun _ => .inl (State.echoExpiry_calm (k := .ofPort) l rfl).pointer_eq) hg
  | livenessWindowEnd l =>
    exact event_keepsOrder (fun _ => .inl (State.windowEnd_calm (k := .ofPort) l rfl).pointer_eq) hg
  | slipRearmTimerExpiry l =>
    exact event_keepsOrder (fun _ => .inl (State.rearmExpiry_calm (k := .ofPort) l rfl).pointer_eq) hg
  | descentTimerExpiry l => exact execDescentTimerExpiry_keepsOrder l hg
  | settleTimerExpiry l => exact absurd trivial hi
  | swingTimerExpiry l => exact execSwingTimerExpiry_keepsOrder l hg
  | poseTimerExpiry => exact execPoseTimerExpiry_keepsOrder hg
  | tripWindowExpiry n => exact execTripWindowExpiry_keepsOrder n hg
  | sweepVisit => exact event_keepsOrder (fun _ => .inl State.sweepVisit_mild.pointer_eq) hg
  | rebaseWalkVisit => exact event_keepsOrder (fun _ => .inl State.walkVisit_mild.pointer_eq) hg
  | rebaseWalkCompletion => exact execRebaseWalkCompletion_keepsOrder hg
  | lift => exact execLift_keepsOrder hg
  | storedContentDisturbance i k => exact event_keepsOrder (fun _ => .inl (disturb_mild i k).pointer_eq) hg

end Sys2Proof.Machine
end

section
/-! SUPPORT. The statements of the gait sequencer's commands GAIT HALT, FORWARD and BACKWARD. -/

namespace Sys2Proof.Proofs

open Machine Claims

/-- Settles O36: the pattern commands by their effect on the noted state, the pointer's frame by exec_keepsOrder. -/
theorem patternModesRestartTheOrder : Obligations.PatternModesRestartTheOrder := by
  unfold Obligations.PatternModesRestartTheOrder
  refine ⟨fun h c s ha hc => ⟨fun hg => ⟨?_, ?_⟩, fun hoff hst => ⟨?_, ?_⟩⟩, fun i s t hg => ?_⟩
  · exact gaitFrame_answered ha hc (patternEffect_named (s := noted s h 16 1) .forward hg)
  · exact gaitFrame_answered ha hc (patternEffect_named (s := noted s h 16 1) .backward hg)
  · exact gaitFrame_answered ha hc (patternEffect_refused (s := noted s h 16 1) .forward hoff hst)
  · exact gaitFrame_answered ha hc (patternEffect_refused (s := noted s h 16 1) .backward hoff hst)
  · by_cases hi : MayMovePointer i
    · rcases mayMovePointer_cases hi with hm | hl | hr
      · exact .inr (.inl hm)
      · exact .inr (.inr (.inl hl))
      · exact .inr (.inr (.inr (.inr hr)))
    · rcases exec_keepsOrder hi hg with hp | hr
      · exact .inl hp
      · exact .inr (.inr (.inr (.inl hr)))

/-- The cause CLIENT enters HALTED from every other gait and leaves a HALTED part as it is (R127, R129). -/
theorem haltCause_client (u : State) :
    (u.seq.gait ≠ .halted → (u.haltCause .client).HaltedBy .client)
    ∧ (u.seq.gait = .halted → u.haltCause .client = u) :=
  ⟨fun h => State.haltCause_haltedBy h rfl, State.haltCause_of_halted .client⟩

/-- Settles O35: the entry by haltCause_client, the answer and the broadcast by the arrival of the frame. -/
theorem gaitHaltHaltsAsClient : Obligations.GaitHaltHaltsAsClient := by
  unfold Obligations.GaitHaltHaltsAsClient
  intro h c s hc n b
  refine ⟨?_, fun ha => gaitFrame_answered ha hc rfl, fun hcl hs hq hf => ⟨?_, ?_, ?_⟩⟩
  · rintro u (rfl | rfl)
    · exact haltCause_client n
    · exact haltCause_client b
  · show frameEvent s h 16 [4] (fun c s => gaitPermitted c s (haltEffect s)) = _
    rw [frameEvent_broadcast hcl hs hq hf rfl rfl (by decide) rfl, gaitPermitted_of_ne hc]
    rfl
  · rw [State.statusWord_broadcast, State.haltCause_lanes]
  · exact congrArg Lanes.inFlight (State.haltCause_lanes .client)

end Sys2Proof.Proofs
end

section
/-! SUPPORT. One edge of a hull (R140): the size of its two products, its length as an integer root, and the distance as
a quotient rounded down. -/

namespace Sys2Proof.Machine

variable {p a b : Point} {q : Nat}

/-! ### The products of an edge stay in range -/

/-- The coordinates of the point lie in the frame of a signed word. -/
def Point.InFrame (p : Point) : Prop := (-32768 ≤ p.x ∧ p.x ≤ 32767) ∧ -32768 ≤ p.y ∧ p.y ≤ 32767

/-- A coordinate difference of two points of the frame is at most 65535 in magnitude (R140). -/
theorem abs_sub_le_of_inFrame {u v : Int} (hu : -32768 ≤ u ∧ u ≤ 32767) (hv : -32768 ≤ v ∧ v ≤ 32767) :
    |v - u| ≤ 65535 := abs_le.2 ⟨by omega, by omega⟩

/-- The product of two coordinate differences. -/
theorem abs_mul_le_of_abs_le {u v : Int} (hu : |u| ≤ 65535) (hv : |v| ≤ 65535) : |u * v| ≤ 65535 * 65535 := by
  rw [abs_mul]
  exact mul_le_mul hu hv (abs_nonneg v) (by decide)

theorem cross_bounds (hp : p.InFrame) (ha : a.InFrame) (hb : b.InFrame) :
    -2 ^ 34 < cross a b p ∧ cross a b p < 2 ^ 34 := by
  have left := abs_mul_le_of_abs_le (abs_sub_le_of_inFrame ha.1 hb.1) (abs_sub_le_of_inFrame ha.2 hp.2)
  have right := abs_mul_le_of_abs_le (abs_sub_le_of_inFrame ha.2 hb.2) (abs_sub_le_of_inFrame ha.1 hp.1)
  rw [abs_le] at left right
  unfold cross
  omega

theorem squaredLength_cast (a b : Point) : (squaredLength a b : Int) = (b.x - a.x) ^ 2 + (b.y - a.y) ^ 2 := by
  rw [squaredLength, Int.toNat_of_nonneg (add_nonneg (mul_self_nonneg _) (mul_self_nonneg _)), sq, sq]

theorem squaredLength_lt (ha : a.InFrame) (hb : b.InFrame) : squaredLength a b < 2 ^ 34 := by
  have wide := abs_le.1 (abs_mul_le_of_abs_le (abs_sub_le_of_inFrame ha.1 hb.1) (abs_sub_le_of_inFrame ha.1 hb.1))
  have high := abs_le.1 (abs_mul_le_of_abs_le (abs_sub_le_of_inFrame ha.2 hb.2) (abs_sub_le_of_inFrame ha.2 hb.2))
  unfold squaredLength
  omega

/-- Distinct points differ in a coordinate, so the squared length is at least 1 (R140 step 2). -/
theorem squaredLength_pos (hab : a ≠ b) : 0 < squaredLength a b := by
  refine Nat.pos_of_ne_zero fun h => hab ?_
  have sum : (b.x - a.x) ^ 2 + (b.y - a.y) ^ 2 = 0 := by rw [← squaredLength_cast, h, Nat.cast_zero]
  obtain ⟨hx, hy⟩ := (add_eq_zero_iff_of_nonneg (sq_nonneg _) (sq_nonneg _)).1 sum
  have hx : b.x = a.x := sub_eq_zero.1 (sq_eq_zero_iff.1 hx)
  have hy : b.y = a.y := sub_eq_zero.1 (sq_eq_zero_iff.1 hy)
  exact congrArg₂ Point.mk hx.symm hy.symm

/-! ### The roots are the least and the greatest integer of their kind (R140 step 3) -/

theorem rootFloor_isGreatest (h : q < 2 ^ 36) : IsGreatest {m : Nat | m ^ 2 ≤ q} (rootFloor q) := by
  have ⟨lo, hi⟩ := rootFloor_bounds h
  refine ⟨(sq (rootFloor q)).trans_le lo, fun m hm => ?_⟩
  have hm : m * m ≤ q := (sq m).ge.trans hm
  exact Nat.lt_succ_iff.1 (Nat.mul_self_lt_mul_self_iff.1 (hm.trans_lt hi))

theorem rootCeil_isLeast (h : q < 2 ^ 36) (hq : 0 < q) : IsLeast {m : Nat | q ≤ m ^ 2} (rootCeil q) := by
  have ⟨hi, lo⟩ := rootCeil_bounds h hq
  refine ⟨hi.trans (sq (rootCeil q)).ge, fun m hm => ?_⟩
  have hm : q ≤ m * m := hm.trans (sq m).le
  have := Nat.mul_self_lt_mul_self_iff.1 (lo.trans_le hm)
  omega

/-! ### The edge's length and the distance -/

theorem edgeLength_isLeast (hc : 0 ≤ cross a b p) (h : squaredLength a b < 2 ^ 36) (hq : 0 < squaredLength a b) :
    IsLeast {m : Nat | squaredLength a b ≤ m ^ 2} (edgeLength a b p) := by
  rw [edgeLength, if_pos hc]
  exact rootCeil_isLeast h hq

theorem edgeLength_isGreatest (hc : cross a b p < 0) (h : squaredLength a b < 2 ^ 36) :
    IsGreatest {m : Nat | m ^ 2 ≤ squaredLength a b} (edgeLength a b p) := by
  rw [edgeLength, if_neg hc.not_ge]
  exact rootFloor_isGreatest h

/-- Neither root of a squared length of at least 1 is 0. -/
theorem edgeLength_pos (p : Point) (h : squaredLength a b < 2 ^ 36) (hq : 0 < squaredLength a b) :
    0 < edgeLength a b p := by
  rcases le_or_gt 0 (cross a b p) with hc | hc
  · have root : squaredLength a b ≤ edgeLength a b p ^ 2 := (edgeLength_isLeast hc h hq).1
    exact Nat.pos_of_ne_zero fun z => by rw [z] at root; omega
  · have one : 1 ^ 2 ≤ squaredLength a b := hq
    exact (edgeLength_isGreatest hc h).2 one

/-- A positive divisor's quotient rounded toward minus infinity is the Euclidean one (R140 step 4). -/
theorem edgeDistance_eq_ediv (p a b : Point) : edgeDistance p a b = cross a b p / (edgeLength a b p : Int) :=
  Int.fdiv_eq_ediv_of_nonneg _ (Int.natCast_nonneg _)

end Sys2Proof.Machine
end

section
/-! SUPPORT. The statement of the margin arithmetic's edge distance. -/

namespace Sys2Proof.Proofs

open Machine

/-- Settles O41: the products by their bounds, the divisor as a least or greatest root, the quotient by its remainder. -/
theorem edgeDistanceRoundsDown : Obligations.EdgeDistanceRoundsDown := by
  unfold Obligations.EdgeDistanceRoundsDown
  intro p a b hframe hab c q
  obtain ⟨hp, ha, hb⟩ : p.InFrame ∧ a.InFrame ∧ b.InFrame := by simpa [Point.InFrame, and_assoc] using hframe
  have hq : (squaredLength a b : Int) = q := squaredLength_cast a b
  have small := squaredLength_lt ha hb
  have pos := squaredLength_pos hab
  have range : squaredLength a b < 2 ^ 36 := small.trans (by decide)
  have hL : (0 : Int) < edgeLength a b p := Int.natCast_pos.2 (edgeLength_pos p range pos)
  obtain ⟨clo, chi⟩ := cross_bounds hp ha hb
  refine ⟨by omega, by omega, clo, chi, edgeLength a b p, hL, edgeDistance_eq_ediv p a b,
    Int.mul_ediv_self_le hL.ne', (Int.lt_mul_ediv_self_add hL).trans_eq (mul_add_one _ _).symm, fun hc => ?_,
    fun hc => ?_⟩
  · obtain ⟨above, least⟩ := edgeLength_isLeast hc range pos
    refine ⟨?_, fun m hm hqm => ?_⟩
    · rw [← hq]
      exact_mod_cast above
    · lift m to Nat using hm
      rw [← hq] at hqm
      exact_mod_cast least (by exact_mod_cast hqm)
  · obtain ⟨below, greatest⟩ := edgeLength_isGreatest hc range
    refine ⟨?_, fun m hm hmq => ?_⟩
    · rw [← hq]
      exact_mod_cast below
    · lift m to Nat using hm
      rw [← hq] at hmq
      exact_mod_cast greatest (by exact_mod_cast hmq)

end Sys2Proof.Proofs
end

section
/-! SUPPORT. The causes of a reset (R179, R180, R183): whichever it is, the event ends in the reset taken in every block. -/

namespace Sys2Proof.Machine

open Claims

variable {s t : State} {h : FrameHead} {code : BitVec 6} {data : List Word} {lane : Lane} {header : Word} {w : Response}

/-! ### A RESET on a shut lane (R179, R183) -/

/-- On a shut lane no response goes out, and the reset that was to follow it is taken at once. -/
theorem State.respond_shut_reset (r : Result) (words : List Word) (hs : s.lanes.isShut h.lane = true) :
    s.respond h code ⟨r, words, true⟩ = s.takeReset s.lanes.straps := by
  simp [State.respond, hs]

/-- A RESET of SUPERVISOR that arrives on a shut lane takes the reset. -/
theorem execReset_shut (ha : Arrives s h .supervisor) (hs : s.lanes.isShut h.lane = true) :
    execReset h s = .next (s.takeReset s.lanes.straps) := by
  have single : isBroadcast h = false := not_isBroadcast ha.single
  have wellFormed : malformedForm h 31 0 [] = false :=
    malformedForm_eq_false (data := []) ha.client rfl (by decide) (by simp [single])
  have shut : (noted s h 31 0).lanes.isShut h.lane = true := by
    rw [← hs]
    cases h.lane <;> rfl
  rw [execReset, frameEvent_valid ha.quiet (addressed_of_arrives ha) ha.settled ha.client wellFormed]
  simp only [State.takeCommand, State.noteCommand_eq_noted (code := 31) _ rfl ha.single, single, Bool.false_eq_true, if_false]
  exact congrArg Host.Outcome.next (State.respond_shut_reset .done [] shut)

/-! ### The end of a RESET's response (R183) -/

theorem execResponseEnd_reset (hf : s.lanes.inFlight = some w) (hr : w.thenReset = true) :
    execResponseEnd s = .next (s.takeReset s.lanes.straps) := by
  obtain ⟨l, words, b⟩ := w
  cases hr
  simp only [execResponseEnd, event, hf]
  rfl

/-! ### The cut of a RESET's response (R180, R183) -/

/-- The station field is the broadcast address or the address of this station, which is not silent (R174 step 2). -/
theorem State.addressed_iff :
    s.addressed h = true ↔ h.station = 15 ∨ h.station = s.lanes.station ∧ s.lanes.station ≠ 0 := by
  simp [State.addressed, isBroadcast, broadcastStation, and_comm]

/-- A response on the other lane leaves this lane quiet. -/
theorem State.sendingOn_of_lane_ne (hf : s.lanes.inFlight = some w) (hl : w.lane ≠ lane) :
    s.sendingOn lane = false := by
  simp [State.sendingOn, hf, hl]

/-- A frame for this station that finds a RESET's response on the other lane takes the reset and is discarded. -/
theorem frameEvent_cuts_reset {effect : Client → State → Effect} (hf : s.lanes.inFlight = some w)
    (hr : w.thenReset = true) (hl : w.lane ≠ h.lane) (ha : s.addressed h = true) :
    frameEvent s h code data effect = .next (s.takeReset s.lanes.straps) :=
  congrArg Host.Outcome.next
    (State.arrive_reset (s := { s with ordersSent := [] }) (State.sendingOn_of_lane_ne hf hl) ha hf hr)

/-- A client row is the event of the frame it stands for, under its owner's effect. -/
theorem exec_of_frameOf {i : Instr} (hi : frameOf i = some (h, code, data)) :
    ∃ effect, ∀ s, exec i s = frameEvent s h code data effect := by
  cases i with
  | commandFrameCheckFailure | frameForOtherStation | malformedFrame | responseEnd | powerOnReset | contactReport
  | echoTimerExpiry | livenessWindowEnd | slipRearmTimerExpiry | descentTimerExpiry | settleTimerExpiry
  | swingTimerExpiry | poseTimerExpiry | tripWindowExpiry | sweepVisit | rebaseWalkVisit | rebaseWalkCompletion | lift
  | storedContentDisturbance => cases hi
  | _ =>
    cases hi
    exact ⟨_, fun _ => rfl⟩

/-- Each raw row is the event of the arrival of the frame it carries (R174). -/
theorem exec_of_rawRow {i : Instr} (hi : RawRow i lane header data) :
    exec i s = event s fun s => s.frameArrives lane header data (checkCode (header :: data)) := by
  rcases hi with rfl | rfl | rfl
  all_goals rfl

/-- A raw frame with a good check word cuts a RESET's response as a client's frame does. -/
theorem State.frameArrives_cuts_reset (hf : s.lanes.inFlight = some w) (hr : w.thenReset = true) (hl : w.lane ≠ lane)
    (ha : s.addressed (headOf lane header) = true) :
    s.frameArrives lane header data (checkCode (header :: data)) = s.takeReset s.lanes.straps := by
  have quiet : s.sendingOn lane = false := sendingOn_of_lane_ne hf hl
  simp only [State.frameArrives, quiet, Bool.false_eq_true, if_false, ne_eq, not_true_eq_false]
  exact arrive_reset quiet ha hf hr

/-! ### Every cause -/

/-- Whichever its cause, a reset leaves the state that takeReset gives for some strap levels. -/
theorem eq_takeReset_of_takesReset (ht : TakesReset s t) : ∃ straps, t = s.takeReset straps := by
  suffices next : ∃ straps, Host.Outcome.next t = (.next (s.takeReset straps) : Host.Outcome State Fault Refusal) from
    next.imp fun _ => Host.Outcome.next.inj
  rcases ht with ⟨straps, hg⟩ | ⟨w, hf, hr, hg⟩ | ⟨h, ha, hs, hg⟩ | ⟨i, h, code, data, w, hi, hf, hr, hl, ha, hg⟩
    | ⟨i, lane, header, data, w, hi, hf, hr, hl, ha, hg⟩
  case inl => exact ⟨straps, hg.symm⟩
  case inr.inl => exact ⟨_, hg.symm.trans (execResponseEnd_reset hf hr)⟩
  case inr.inr.inl => exact ⟨_, hg.symm.trans (execReset_shut ha hs)⟩
  case inr.inr.inr.inl =>
    obtain ⟨effect, he⟩ := exec_of_frameOf hi
    exact ⟨_, hg.symm.trans ((he s).trans (frameEvent_cuts_reset hf hr hl (State.addressed_iff.2 ha)))⟩
  case inr.inr.inr.inr =>
    have cut := State.frameArrives_cuts_reset (s := { s with ordersSent := [] }) (data := data) hf hr hl
      (State.addressed_iff.2 ha)
    exact ⟨_, hg.symm.trans ((exec_of_rawRow hi).trans (congrArg Host.Outcome.next cut))⟩

end Sys2Proof.Machine
end

section
/-! SUPPORT. What a reset leaves in the trip unit, and in the values that it copies (R160). -/

namespace Sys2Proof.Machine.State

variable (s : State) (straps : BitVec 4)

theorem takeReset_term (n : Fin 8) :
    (s.takeReset straps).trips.terms[n] = ⟨false, .currentMargin, .lf, .below, 0, false⟩ :=
  Vector.getElem_replicate n.isLt

@[simp] theorem takeReset_trip (n : Fin 4) :
    (s.takeReset straps).trip n = ⟨.any, 0, 0, 0, 10, .attention, .disarmed, .stopped⟩ :=
  Vector.getElem_replicate n.isLt

/-- The margins are copied at their lowest value, every other source at 0. -/
theorem takeReset_copy (src : Source) (l : Leg) :
    (s.takeReset straps).trips.copies.read src l = if src = .currentMargin ∨ src = .liftMargin then -32768 else 0 := by
  cases src with
  | currentMargin | liftMargin | pitch | roll | candidateCount => rfl
  | normalLoad | tangentialRatio | overtemp | slipCount => exact PerLeg.get_const 0 l

@[simp] theorem takeReset_node (n : NodeNumber) : (s.takeReset straps).node n = ⟨0, false, none, false⟩ :=
  Vector.getElem_replicate n.isLt

@[simp] theorem takeReset_leg (l : Leg) : (s.takeReset straps).leg l = .reset := PerLeg.get_const _ l

@[simp] theorem takeReset_port (l : Leg) : (s.takeReset straps).port l = .reset := PerLeg.get_const _ l

/-- The store is empty, so no record is counted. -/
theorem takeReset_candidateCount : (s.takeReset straps).candidateCount = 0 := by
  have empty : (s.takeReset straps).store.slots.toList = List.replicate 40 none := rfl
  rw [State.candidateCount, empty, List.filter_replicate]
  rfl

end Sys2Proof.Machine.State
end

section
/-! SUPPORT. The statement of the trip unit after a reset. -/

namespace Sys2Proof.Proofs

open Machine Claims

/-- Settles O51: every cause of a reset ends in takeReset, whose trip unit and owning blocks are read off. -/
theorem resetOfTheTripUnit : Obligations.ResetOfTheTripUnit := by
  unfold Obligations.ResetOfTheTripUnit
  intro s t ht
  obtain ⟨straps, rfl⟩ := eq_takeReset_of_takesReset ht
  refine ⟨s.takeReset_term straps, s.takeReset_trip straps, s.takeReset_copy straps, fun n => ?_, rfl, rfl, rfl, rfl,
    s.takeReset_candidateCount straps, fun l => ⟨?_, ?_⟩⟩
  · rw [State.takeReset_node]
  · rw [State.takeReset_leg, LegState.reset]
  · rw [State.takeReset_port, Port.reset]

end Sys2Proof.Proofs
end

section
/-! SUPPORT. The laws that Mild keeps through an owner's effect, kept through a whole step: a frame's arrival and
answer, a reset, and every event (R68, R76, R114, R115, R161, R164). -/

namespace Sys2Proof.Machine

open Claims

variable {w : Writes} {k : Scope} {s t u : State} {h : FrameHead} {code : BitVec 6} {count : BitVec 4}
  {data : List Word} {effect : Client → State → Effect} {lane : Lane}

/-- Each law that Mild keeps holds of the second state where it held of the first. -/
structure KeepsLaws (s t : State) : Prop where
  line : s.attn.line = lineOf s.attn.nodes → t.attn.line = lineOf t.attn.nodes
  more : (∀ n, (s.node n).more = true → (s.node n).pending.isSome = true) →
    ∀ n, (t.node n).more = true → (t.node n).pending.isSome = true
  halt : s.seq.haltOk → t.seq.haltOk
  walk : s.seq.walkOk → t.seq.walkOk
  down : (∀ l, (s.port l).downOk) → ∀ l, (t.port l).downOk

namespace KeepsLaws

theorem refl (s : State) : KeepsLaws s s := ⟨id, id, id, id, id⟩

theorem trans (h : KeepsLaws s t) (h' : KeepsLaws t u) : KeepsLaws s u :=
  ⟨h'.line ∘ h.line, h'.more ∘ h.more, h'.halt ∘ h.halt, h'.walk ∘ h.walk, h'.down ∘ h.down⟩

theorem of_mild (h : Mild w s t) : KeepsLaws s t := ⟨h.line, h.more, h.halt, h.walk, h.down⟩

/-- A cascade keeps the laws, unless it stands inside a lift readiness evaluation. -/
theorem of_calm (h : Calm k s t) (he : k.ev = false := by rfl) : KeepsLaws s t :=
  of_mild (w := { adv := true }) (.of h he (.inr rfl))

/-- A state in which only the waiting commands, the lane interface and the list of orders differ is under the same
laws. -/
theorem of_lanes (pending : List Instr) (lanes : Lanes) (orders : List (Leg × Order)) :
    KeepsLaws s { s with pending := pending, lanes := lanes, ordersSent := orders } := ⟨id, id, id, id, id⟩

/-- The laws hold after a reset, whatever held before it. -/
theorem takeReset (straps : BitVec 4) : KeepsLaws t (s.takeReset straps) where
  line _ := rfl
  more _ n hm := by
    rw [State.takeReset_node] at hm
    cases hm
  halt _ := by constructor <;> nofun
  walk _ := by constructor <;> nofun
  down _ l _ := by
    rw [State.takeReset_port]
    exact ⟨rfl, rfl, rfl, rfl⟩

theorem ite {c : Prop} [Decidable c] {a b : State} (ha : c → KeepsLaws s a) (hb : ¬c → KeepsLaws s b) :
    KeepsLaws s (if c then a else b) := by
  split
  · exact ha ‹_›
  · exact hb ‹_›

/-! ### A frame's arrival and answer -/

theorem respond (r : Reply) : KeepsLaws s (s.respond h code r) :=
  .ite (fun _ => .ite (fun _ => .takeReset _) fun _ => .refl _) fun _ => .of_lanes _ _ _

theorem noteCommand : KeepsLaws s (s.noteCommand h code count) := .ite (fun _ => .refl _) fun _ => .of_lanes _ _ _

theorem takeCommand {body : State → Effect} (hb : ∀ u, KeepsLaws u (body u).2) :
    KeepsLaws s (s.takeCommand h code count body) :=
  have owner := noteCommand.trans (hb (s.noteCommand h code count))
  .ite (fun _ => owner) fun _ => owner.trans (.respond _)

/-- A frame changes no more than its owner's effect and the lane interface, or cuts a RESET's response (R174, R183). -/
theorem arrive (he : ∀ c u, KeepsLaws u (effect c u).2) : KeepsLaws s (s.arrive h code count data effect) := by
  refine .ite (fun _ => .refl _) fun _ => .ite (fun _ => .refl _) fun _ => ?_
  split
  · exact .takeReset _
  · have cut : KeepsLaws s (s.setLanes { s.lanes with inFlight := none }) := .of_lanes _ _ _
    dsimp only
    split
    · exact cut.trans (.of_lanes _ _ _)
    · exact .ite (fun _ => cut.trans (.of_lanes _ _ _)) fun _ => cut.trans (.takeCommand (he _))

/-- An event keeps the laws if its effect does. -/
theorem event {f : State → State} (hf : ∀ u, KeepsLaws u (f u)) (hg : Machine.event s f = .next t) :
    KeepsLaws s t := by
  obtain rfl := Host.Outcome.next.inj hg
  exact (of_lanes _ _ _).trans (hf { s with ordersSent := [] })

theorem setFrameFlag : KeepsLaws s s.setFrameFlag := ⟨id, id, id, id, id⟩

end KeepsLaws

/-! ### The owner's effect, by the command code table -/

/-- Whoever sends it, the command's effect keeps the laws. -/
def EffectKeepsLaws (effect : Client → State → Effect) : Prop := ∀ c s, KeepsLaws s (effect c s).2

theorem EffectKeepsLaws.of_mild (hm : ∀ {s} c, Mild w s (effect c s).2) : EffectKeepsLaws effect :=
  fun c _ => .of_mild (hm c)

theorem forall_mem_words0 {P : (Client → State → Effect) → Prop} {f} (h : P f) : ∀ e ∈ words0 f data, P e := by
  unfold words0
  split <;> simp [h]

theorem forall_mem_words1 {P : (Client → State → Effect) → Prop} {f} (h : ∀ a, P (f a)) :
    ∀ e ∈ words1 f data, P e := by
  unfold words1
  split <;> simp [h]

theorem forall_mem_words2 {P : (Client → State → Effect) → Prop} {f} (h : ∀ a b, P (f a b)) :
    ∀ e ∈ words2 f data, P e := by
  unfold words2
  split <;> simp [h]

theorem forall_mem_words3 {P : (Client → State → Effect) → Prop} {f} (h : ∀ a b c, P (f a b c)) :
    ∀ e ∈ words3 f data, P e := by
  unfold words3
  split <;> simp [h]

theorem forall_mem_words4 {P : (Client → State → Effect) → Prop} {f} (h : ∀ a b c d, P (f a b c d)) :
    ∀ e ∈ words4 f data, P e := by
  unfold words4
  split <;> simp [h]

theorem forall_mem_words6 {P : (Client → State → Effect) → Prop} {f} (h : ∀ a b c d e g, P (f a b c d e g)) :
    ∀ e ∈ words6 f data, P e := by
  unfold words6
  split <;> simp [h]

theorem takeGait_keepsLaws (mode : Word) : EffectKeepsLaws (takeGait mode) := by
  intro c s
  have named (p : Pattern) : KeepsLaws s (gaitPermitted c s (patternEffect p s)).2 :=
    .of_mild (gaitPermitted_mild (patternEffect_mild p))
  have other {body : Effect} (hb : Mild {} s body.2) : KeepsLaws s (gaitPermitted c s body).2 :=
    .of_mild (gaitPermitted_mild hb)
  unfold takeGait gaitEffect
  split
  · exact other standEffect_mild
  · exact other walkEffect_mild
  · exact other pauseEffect_mild
  · exact other offEffect_mild
  · exact other haltEffect_mild
  · exact named .forward
  · exact named .backward
  · exact other (.refl _ _)
  · exact other (.refl _ _)

theorem takeTrip_keepsLaws (trip operation mode action terms window : Word) :
    EffectKeepsLaws (takeTrip trip operation mode action terms window) := by
  intro c s
  unfold takeTrip permitted
  split
  · split
    · exact .refl _
    · split
      · exact .of_mild (configureEffect_mild _ _ _ _ _)
      · exact .of_mild (armEffect_mild _)
      · exact .of_mild (disarmEffect_mild _)
      · exact .refl _
  · exact .refl _

/-- Every command of the command code table keeps the laws. -/
theorem effectOf_keepsLaws : ∀ e ∈ effectOf lane code data, EffectKeepsLaws e := by
  unfold effectOf
  split
  · exact forall_mem_words4 fun x y z k => .of_mild (takeSubmit_mild x y z k)
  · exact forall_mem_words6 fun a m x y z k => .of_mild (takeAmend_mild a m x y z k)
  · exact forall_mem_words1 fun a => .of_mild (takeQuery_mild a)
  · exact forall_mem_words4 fun x y r m => .of_mild (takeFind_mild x y r m)
  · exact forall_mem_words1 fun a => .of_mild (takeRetire_mild a)
  · exact forall_mem_words6 fun a x y z k f => .of_mild (takeRestore_mild a x y z k f)
  · exact forall_mem_words3 fun x y z => .of_mild (takeRebase_mild x y z)
  · exact forall_mem_words2 fun l a => .of_mild (takeReserve_mild l a)
  · exact forall_mem_words1 fun a => .of_mild (takeCancel_mild a)
  · exact forall_mem_words1 fun l => .of_mild (takeQueue_mild l)
  · exact forall_mem_words2 fun l a => .of_mild (takeAdopt_mild l a)
  · exact forall_mem_words1 fun l => .of_mild (takeRedirect_mild l)
  · exact forall_mem_words1 fun l => .of_mild (takeLegstate_mild l)
  · exact forall_mem_words1 fun l => .of_mild (takeRelink_mild l)
  · exact forall_mem_words1 takeGait_keepsLaws
  · exact forall_mem_words0 (.of_mild takeResume_mild)
  · exact forall_mem_words4 fun x y p r => .of_mild (takePose_mild x y p r)
  · exact forall_mem_words0 (.of_mild takeMargin_mild)
  · exact forall_mem_words6 fun n e src l r v => .of_mild (takeTerm_mild n e src l r v)
  · exact forall_mem_words6 takeTrip_keepsLaws
  · exact forall_mem_words0 (.of_mild takeTripstate_mild)
  · exact forall_mem_words3 fun n p f => .of_mild (takeAttention_mild n p f)
  · exact forall_mem_words0 (.of_mild takeVector_mild)
  · exact forall_mem_words0 (.of_mild takeCondition_mild)
  · exact forall_mem_words0 (.of_mild takeClearcond_mild)
  · exact forall_mem_words0 (.of_mild takeStatus_mild)
  · exact forall_mem_words0 (.of_mild takeLastcmd_mild)
  · exact forall_mem_words2 fun l o => .of_mild (takeLane_mild lane l o)
  · exact forall_mem_words0 (.of_mild takeResetCommand_mild)
  · exact forall_mem_words2 fun p v => .of_mild (takeSetparam_mild p v)
  · exact forall_mem_words1 fun p => .of_mild (takeGetparam_mild p)
  · exact forall_mem_words3 fun k f d => .of_mild (takeFriction_mild k f d)
  · exact forall_mem_words1 fun k => .of_mild (takeGetfriction_mild k)
  · exact nofun

/-- A client row is the event of the frame it stands for, under the effect that the command code table gives the
frame. -/
theorem exec_eq_effectOf {i : Instr} (hi : frameOf i = some (h, code, data)) :
    ∃ e ∈ effectOf h.lane code data, ∀ s, exec i s = frameEvent s h code data e := by
  cases i with
  | commandFrameCheckFailure | frameForOtherStation | malformedFrame | responseEnd | powerOnReset | contactReport
  | echoTimerExpiry | livenessWindowEnd | slipRearmTimerExpiry | descentTimerExpiry | settleTimerExpiry
  | swingTimerExpiry | poseTimerExpiry | tripWindowExpiry | sweepVisit | rebaseWalkVisit | rebaseWalkCompletion | lift
  | storedContentDisturbance => cases hi
  | _ =>
    cases hi
    exact ⟨_, rfl, fun _ => rfl⟩

/-- A raw frame changes nothing, sets the FRAME bit, or arrives as its code and words spell (R174). -/
theorem State.frameArrives_keepsLaws (header check : Word) : KeepsLaws s (s.frameArrives lane header data check) := by
  refine .ite (fun _ => .refl _) fun _ => .ite (fun _ => .setFrameFlag) fun _ => .arrive fun c u => ?_
  cases he : effectOf lane (codeOf header) data with
  | none => exact .refl _
  | some e => exact effectOf_keepsLaws e he c u

/-! ### Every command and event, and the step -/

theorem State.takeReport_keepsLaws (l : Leg) (flags normal tangential check : Word) :
    KeepsLaws s (s.takeReport l flags normal tangential check) :=
  .ite (fun _ => .of_calm (State.goodReport_calm (k := .ofPort) l _ _ rfl)) fun _ => .setFrameFlag

theorem execResponseEnd_keepsLaws (hg : execResponseEnd s = .next t) : KeepsLaws s t := by
  refine .event (fun u => ?_) hg
  split
  · exact .refl _
  · exact .takeReset _
  · exact .of_lanes _ _ _

theorem execLift_keepsLaws (hg : execLift s = .next t) : KeepsLaws s t := by
  refine .event (fun u => ?_) hg
  split
  · exact .refl _
  · exact .ite (fun _ => .refl _) fun _ => .of_calm (State.takeLift_calm (k := .plain) _)

theorem execRebaseWalkCompletion_keepsLaws (hg : execRebaseWalkCompletion s = .next t) : KeepsLaws s t := by
  refine .event (fun u => ?_) hg
  split
  · exact .refl _
  · exact .ite (fun _ => .of_mild (State.completeWalk_mild _)) fun _ => .refl _

theorem execTripWindowExpiry_keepsLaws (n : Fin 4) (hg : execTripWindowExpiry n s = .next t) : KeepsLaws s t := by
  refine .event (fun u => .ite (fun _ => ?_) fun _ => .refl _) hg
  exact .of_calm (k := .plain) (State.setTrip_calm n _ rfl)

/-- A row that stands for no client's frame keeps the laws. -/
theorem exec_keepsLaws_of_frameOf_eq_none {i : Instr} (hi : frameOf i = none) (hg : Gives i s t) : KeepsLaws s t := by
  cases i with
  | commandFrameCheckFailure | frameForOtherStation | malformedFrame =>
    exact .event (fun u => u.frameArrives_keepsLaws _ _) hg
  | responseEnd => exact execResponseEnd_keepsLaws hg
  | powerOnReset straps => exact .event (fun _ => .takeReset straps) hg
  | contactReport l f n w k => exact .event (fun u => u.takeReport_keepsLaws l f n w k) hg
  | echoTimerExpiry l => exact .event (fun _ => .of_calm (State.echoExpiry_calm (k := .ofPort) l rfl)) hg
  | livenessWindowEnd l => exact .event (fun _ => .of_calm (State.windowEnd_calm (k := .ofPort) l rfl)) hg
  | slipRearmTimerExpiry l => exact .event (fun _ => .of_calm (State.rearmExpiry_calm (k := .ofPort) l rfl)) hg
  | descentTimerExpiry l =>
    exact .event (fun _ => .ite (fun _ => .of_calm (State.missVoid_calm (k := .plain) l)) fun _ => .refl _) hg
  | settleTimerExpiry l =>
    exact .event (fun _ => .ite (fun _ => .of_calm (State.confirmStance_calm (k := ⟨true, false, false⟩) l rfl))
      fun _ => .refl _) hg
  | swingTimerExpiry l =>
    exact .event (fun _ => .ite (fun _ => .of_calm (k := .plain) (.trans (Calm.setLeg l _) (State.haltCause_calm _)))
      fun _ => .refl _) hg
  | poseTimerExpiry =>
    exact .event (fun _ => .ite (fun _ => .of_mild State.poseExpiry_mild) fun _ => .refl _) hg
  | tripWindowExpiry n => exact execTripWindowExpiry_keepsLaws n hg
  | sweepVisit => exact .event (fun _ => .of_mild State.sweepVisit_mild) hg
  | rebaseWalkVisit => exact .event (fun _ => .of_mild State.walkVisit_mild) hg
  | rebaseWalkCompletion => exact execRebaseWalkCompletion_keepsLaws hg
  | lift => exact execLift_keepsLaws hg
  | storedContentDisturbance i k => exact .event (fun _ => .of_mild (disturb_mild i k)) hg
  | _ => cases hi

theorem exec_keepsLaws {i : Instr} (hg : Gives i s t) : KeepsLaws s t := by
  cases hi : frameOf i with
  | none => exact exec_keepsLaws_of_frameOf_eq_none hi hg
  | some frame =>
    obtain ⟨h, code, data⟩ := frame
    obtain ⟨e, he, hx⟩ := exec_eq_effectOf hi
    exact .event (fun _ => .arrive (effectOf_keepsLaws e he)) ((hx s).symm.trans hg)

/-- Every step keeps the laws: a waiting command, a waiting report of a new front, or an idle step (logs 1 and 9). -/
theorem step_keepsLaws (hg : step s = .next t) : KeepsLaws s t := by
  unfold step at hg
  split at hg
  · unfold takeWaitingReport at hg
    split at hg
    · cases hg
      exact .refl _
    · exact .event (fun _ => .of_calm (State.hearNewFront_calm (k := .plain) _)) hg
  · exact (KeepsLaws.of_lanes _ _ _).trans (exec_keepsLaws hg)

end Sys2Proof.Machine
end

section
/-! SUPPORT. The ATTN line as its nodes make it (R164), and the bit that shows it (R168). -/

namespace Sys2Proof.Machine

variable {s : State} {n : NodeNumber} {v w : Node} {nodes : Vector Node 8}

theorem Node.presentable_iff :
    v.presentable = true ↔ v.pending ≠ none ∧ v.enabled = true ∧ 1 ≤ v.priority.toNat := by
  have positive : v.priority ≠ 0 ↔ 1 ≤ v.priority.toNat := by
    rw [Nat.one_le_iff_ne_zero, ne_eq, ne_eq, BitVec.toNat_eq]
    rfl
  simp [presentable, ← positive, Option.isSome_iff_ne_none, and_assoc]

/-- The line is asserted by a node that is pending, enabled and of priority at least 1. -/
theorem lineOf_iff : lineOf nodes = true ↔ ∃ n : NodeNumber, nodes[n].presentable = true := by
  have any : lineOf nodes = nodes.toList.any Node.presentable := rfl
  rw [any, List.any_eq_true]
  constructor
  · rintro ⟨v, hv, hp⟩
    obtain ⟨i, hi, rfl⟩ := Vector.mem_iff_getElem.1 (Vector.mem_toList_iff.1 hv)
    exact ⟨⟨i, hi⟩, hp⟩
  · rintro ⟨n, hp⟩
    exact ⟨nodes[n], Vector.mem_toList_iff.2 (Vector.getElem_mem n.isLt), hp⟩

theorem getElem_set_node (n m : NodeNumber) : (nodes.set n v)[m] = if n = m then v else nodes[m] := by
  simp [Vector.getElem_set, Fin.ext_iff]

/-- A node that neither asserted the line nor does so now does not move it. -/
theorem lineOf_set_of_presentable_eq_false (hv : nodes[n].presentable = false) (hw : w.presentable = false) :
    lineOf (nodes.set n w) = lineOf nodes := by
  have same (m : NodeNumber) : (nodes.set n w)[m].presentable = nodes[m].presentable := by
    rw [getElem_set_node]
    split
    · subst m
      rw [hv, hw]
    · rfl
  rw [Bool.eq_iff_iff, lineOf_iff, lineOf_iff]
  simp only [same]

theorem lineOf_set_of_presentable (hw : w.presentable = true) : lineOf (nodes.set n w) = true :=
  lineOf_iff.2 ⟨n, by rwa [getElem_set_node, if_pos rfl]⟩

theorem Node.presentable_eq_false (h : v.enabled = false ∨ v.priority = 0) : v.presentable = false := by
  rcases h with h | h <;> simp [presentable, h]

/-- A cause leaves a node's enable and priority as they are (R162). -/
theorem Node.pend_enabled_priority (d : Detail) :
    (v.pend d).enabled = v.enabled ∧ (v.pend d).priority = v.priority := by
  unfold pend
  split <;> exact ⟨rfl, rfl⟩

/-- A cause at a node that is disabled or of priority 0 leaves the line that the nodes make. -/
theorem State.pend_line (d : Detail) (hl : s.attn.line = lineOf s.attn.nodes)
    (h : (s.node n).enabled = false ∨ (s.node n).priority = 0) : (s.pend n d).attn.line = s.attn.line := by
  obtain ⟨he, hp⟩ := Node.pend_enabled_priority (v := s.node n) d
  have after : ((s.node n).pend d).presentable = false := Node.presentable_eq_false (by rwa [he, hp])
  rw [hl]
  exact lineOf_set_of_presentable_eq_false (Node.presentable_eq_false h) after

/-- ATTENTION with the enable flag alone, on a pending node with a priority of at least 1, asserts the line (R165). -/
theorem State.attend_line {p : BitVec 4} (hn : (s.node n).pending ≠ none) (hp : 1 ≤ p.toNat) :
    (s.attend n p true false false).attn.line = true :=
  lineOf_set_of_presentable (w := { s.node n with priority := p, enabled := true })
    (Node.presentable_iff.2 ⟨hn, rfl, hp⟩)

/-- ATTN is bit 10 of the status word (R168, 11.2). -/
theorem State.statusWord_attn : s.statusWord.getLsbD 10 = s.attn.line := by
  simp only [State.statusWord, bit, BitVec.getLsbD_append]
  simp

end Sys2Proof.Machine
end

section
/-! SUPPORT. The answer to ATTENTION in the range of its words (R165), and a command that may not be broadcast
(R175). -/

namespace Sys2Proof.Machine

open Claims

variable {s : State} {h : FrameHead} {code : BitVec 6} {data : List Word} {effect : Client → State → Effect}

theorem indexOf_eq_some {bound m : Nat} (n : Fin bound) (h : m = n.val) : indexOf bound m = some n := by
  subst h
  exact dif_pos n.isLt

/-- The answer leaves every block but the lane interface as it is. -/
theorem answered_attn (r : Result) (words : List Word) : (answered s h code r words).attn = s.attn := by
  unfold answered
  split <;> rfl

theorem takeAttention_eq {node priority flags : Word} {n : NodeNumber} (hn : node.toNat = n.val)
    (hp : priority.toNat < 16) :
    takeAttention node priority flags .supervisor s =
      let after := s.attend n (BitVec.ofFin ⟨priority.toNat, hp⟩) (flags.getLsbD 0) (flags.getLsbD 1) (flags.getLsbD 2)
      doneWith after (attentionWords n (after.node n)) := by
  have priorityIndex : indexOf 16 priority.toNat = some ⟨priority.toNat, hp⟩ := indexOf_eq_some _ rfl
  simp only [takeAttention, indexOf_eq_some n hn, priorityIndex]
  rfl

/-- A broadcast of a command that may not be broadcast cuts a response in flight and sets ME, whatever client field it
bears, and does nothing else (R175, R180). -/
theorem frameEvent_broadcast_malformed (hs : h.station = 15) (hq : s.sendingOn h.lane = false)
    (hf : ∀ r, s.lanes.inFlight = some r → r.thenReset = false) (hm : mayBroadcast code data = false) :
    frameEvent s h code data effect =
      .next { begun s with lanes := { s.lanes with inFlight := none, me := true } } := by
  have hb : isBroadcast h = true := isBroadcast_iff.2 hs
  have ha : s.addressed h = true := State.addressed_iff.2 (.inl hs)
  have malformed : malformedForm h code (BitVec.ofNat 4 data.length) data = true := by
    simp [malformedForm, hb, hm]
  refine congrArg Host.Outcome.next
    ((State.arrive_cut (s := { s with ordersSent := [] }) (count := BitVec.ofNat 4 data.length) hq ha hf).trans ?_)
  dsimp only
  split
  · rfl
  · rw [if_pos malformed]
    rfl

end Sys2Proof.Machine
end

section
/-! SUPPORT. The words that show the four sticky flags: the condition word (R169) and MARGIN's last word (R147). -/

namespace Sys2Proof.Machine

variable {s : State}

/-- The four sticky flags as the condition word shows them: FRAME, CHECK, DEGEN, SAT (R169, 11.4). -/
def State.stickyBits (s : State) : BitVec 4 :=
  bit s.attn.frameFlag ++ bit s.attn.checkFlag ++ bit s.bal.degen ++ bit s.bal.sat

/-- The condition word's other fields: the shut lanes, the joint faults and the links (R169, 11.4). -/
def State.linkBits (s : State) : BitVec 12 :=
  0#2 ++ bit s.lanes.shutB ++ bit s.lanes.shutA
    ++ bit (s.port .rh).jointFault ++ bit (s.port .lh).jointFault ++ bit (s.port .rf).jointFault
    ++ bit (s.port .lf).jointFault
    ++ bit (s.port .rh).linkUp ++ bit (s.port .lh).linkUp ++ bit (s.port .rf).linkUp ++ bit (s.port .lf).linkUp

theorem State.conditionWord_eq_append : s.conditionWord = s.stickyBits ++ s.linkBits := by
  rw [BitVec.toNat_eq]
  simp only [State.conditionWord, State.stickyBits, State.linkBits, toNat_append_sum]
  omega

theorem State.conditionWord_sticky : s.conditionWord.extractLsb' 12 4 = s.stickyBits := by
  rw [conditionWord_eq_append]
  exact BitVec.extractLsb'_append_eq_left

theorem State.conditionWord_links : s.conditionWord.extractLsb' 0 12 = s.linkBits := by
  rw [conditionWord_eq_append]
  exact BitVec.extractLsb'_append_eq_right

theorem State.stickyBits_eq_zero (hframe : s.attn.frameFlag = false) (hcheck : s.attn.checkFlag = false)
    (hdegen : s.bal.degen = false) (hsat : s.bal.sat = false) : s.stickyBits = 0 := by
  rw [stickyBits, hframe, hcheck, hdegen, hsat]
  rfl

/-- With DEGEN and SAT clear, MARGIN's last word holds the pose's freshness alone (R147, 11.4). -/
theorem marginWords_last {b : Balance} (hs : b.sat = false) (hd : b.degen = false) :
    (marginWords b)[7]? = some ((freshnessNumber b.freshness).setWidth 16) := by
  rw [marginWords, hs, hd]
  cases b.freshness <;> rfl

end Sys2Proof.Machine
end

section
/-! SUPPORT. The statements of the attention unit: the ATTN line and CLEARCOND. -/

namespace Sys2Proof.Proofs

open Machine Claims

theorem lineLaw_iff (s : State) : Safety.lineLaw s = true ↔ s.attn.line = lineOf s.attn.nodes := beq_iff_eq

/-- An ATTENTION that enables a pending node at a priority of at least 1 leaves the line asserted. -/
theorem attention_asserts_line {h : FrameHead} {s t : State} {node priority : Word} {n : NodeNumber}
    (ha : Arrives s h .supervisor) (hn : node.toNat = n.val) (hlo : 1 ≤ priority.toNat) (hhi : priority.toNat ≤ 15)
    (hp : (s.node n).pending ≠ none) (hg : Gives (.attention h node priority 1) s t) : t.attn.line = true := by
  have answer : execAttention h node priority 1 s = _ :=
    frameEvent_answered ha rfl rfl (by decide : 3 < 16) (takeAttention_eq hn (Nat.lt_succ_of_le hhi))
  obtain rfl := Host.Outcome.next.inj (answer.symm.trans hg)
  rw [answered_attn]
  exact State.attend_line hp hlo

/-- Settles O54: the line by lineOf_iff, every step by step_keepsLaws, the rest by the line after one node's change. -/
theorem attnLineFollowsTheNodes : Obligations.AttnLineFollowsTheNodes := by
  unfold Obligations.AttnLineFollowsTheNodes
  refine ⟨fun s => ?_, fun s t hl hg => ?_, fun s n d hl => State.pend_line d ((lineLaw_iff s).1 hl), ?_,
    fun s => State.statusWord_attn⟩
  · rw [lineLaw_iff, Bool.eq_iff_iff, lineOf_iff]
    simp only [Node.presentable_iff]
    rfl
  · exact (lineLaw_iff t).2 ((step_keepsLaws hg).line ((lineLaw_iff s).1 hl))
  · rintro h s t node priority flags n ha hn hlo hhi rfl hp hg
    exact attention_asserts_line ha hn hlo hhi hp hg

/-- Settles O48: the refusal and the answer by the arrival of the frame, the cleared words by their fields, the
broadcast by its form. -/
theorem clearcondClearsTheStickyFlags : Obligations.ClearcondClearsTheStickyFlags := by
  unfold Obligations.ClearcondClearsTheStickyFlags
  refine fun h c s => ⟨fun ha hc => ?_, fun ha => ⟨?_, ?_, ?_, ?_⟩, fun hs hq hf => ?_⟩
  · refine frameEvent_answered ha rfl rfl (by decide : 0 < 16) ?_
    cases c with
    | perception | planner => rfl
    | supervisor => exact absurd rfl hc
  · exact frameEvent_answered ha rfl rfl (by decide : 0 < 16) rfl
  · exact State.conditionWord_sticky.trans (State.stickyBits_eq_zero rfl rfl rfl rfl)
  · rw [State.conditionWord_links, State.conditionWord_links]
    rfl
  · exact marginWords_last rfl rfl
  · exact frameEvent_broadcast_malformed hs hq hf rfl

end Sys2Proof.Proofs
end

section
/-! SUPPORT. The laws of the machine as the cascades keep them (Laws/Calm.lean): each Boolean law is the proposition of
the same name. -/

namespace Sys2Proof.Machine

variable (s : State)

theorem moreLaw_iff :
    Safety.moreLaw s = true ↔ ∀ n, (s.node n).more = true → (s.node n).pending.isSome = true := by
  rw [Safety.moreLaw, List.all_eq_true]
  constructor
  · intro h n hm
    have law : ((s.node n).pending.isSome || !(s.node n).more) = true :=
      h _ (Vector.mem_toList_iff.2 (Vector.getElem_mem (xs := s.attn.nodes) n.isLt))
    simpa [hm] using law
  · intro h v hv
    obtain ⟨i, hi, rfl⟩ := Vector.mem_iff_getElem.1 (Vector.mem_toList_iff.1 hv)
    have := h ⟨i, hi⟩
    cases hm : s.attn.nodes[i].more with
    | false => simp
    | true => simp [show s.attn.nodes[i].pending.isSome = true from this hm]

theorem haltLaw_iff : Safety.haltLaw s = true ↔ s.seq.haltOk := by
  rw [Safety.haltLaw, Sequencer.haltOk, beq_iff_eq, Bool.eq_iff_iff, beq_iff_eq]

theorem walkLaw_iff : Safety.walkLaw s = true ↔ s.seq.walkOk := by
  unfold Safety.walkLaw Sequencer.walkOk
  split <;> simp [*]

theorem Leg.mem_all (l : Leg) : l ∈ Leg.all := by cases l <;> simp [Leg.all]

theorem downLaw_iff : Safety.downLaw s = true ↔ ∀ l, (s.port l).downOk := by
  rw [Safety.downLaw, List.all_eq_true]
  refine ⟨fun h l => ?_, fun h l _ => ?_⟩
  · have := h l (Leg.mem_all l)
    intro hd
    simpa [hd, and_assoc] using this
  · have := h l
    cases hd : (s.port l).linkUp with
    | true => simp [hd]
    | false => simpa [hd, and_assoc] using this hd

end Sys2Proof.Machine
end

section
/-! SUPPORT. The statements of the laws that every step keeps. -/

namespace Sys2Proof.Proofs

open Machine Claims

/-- Settles O55: the more flags' part of step_keepsLaws. -/
theorem moreFlagNeedsAPendingNode : Obligations.MoreFlagNeedsAPendingNode := by
  unfold Obligations.MoreFlagNeedsAPendingNode
  intro s t hs hg
  exact (moreLaw_iff t).2 ((step_keepsLaws hg).more ((moreLaw_iff s).1 hs))

/-- Settles O56: the sequencer's two parts of step_keepsLaws. -/
theorem gaitLawsAreKept : Obligations.GaitLawsAreKept := by
  unfold Obligations.GaitLawsAreKept
  intro s t hh hw hg
  have kept := step_keepsLaws hg
  exact ⟨(haltLaw_iff t).2 (kept.halt ((haltLaw_iff s).1 hh)), (walkLaw_iff t).2 (kept.walk ((walkLaw_iff s).1 hw))⟩

/-- Settles O57: the ports' part of step_keepsLaws. -/
theorem downLinksHoldNothing : Obligations.DownLinksHoldNothing := by
  unfold Obligations.DownLinksHoldNothing
  intro s t hs hg
  exact (downLaw_iff t).2 ((step_keepsLaws hg).down ((downLaw_iff s).1 hs))

/-- A reset leaves no record, so nothing is held and nothing has a holder. -/
theorem holderLaw_resetWith (straps : BitVec 4) : Safety.HolderLaw (State.resetWith straps) := by
  have leg (l : Leg) : (State.resetWith straps).leg l = .reset := PerLeg.get_const _ l
  have queue (l : Leg) : (State.resetWith straps).queue l = [] := PerLeg.get_const _ l
  have slot (i : RecordIndex) : (State.resetWith straps).slot i = none := Vector.getElem_replicate i.isLt
  constructor <;> simp [leg, queue, slot, LegState.reset, Safety.stands, Safety.aims]

/-- Settles O53: each law by its proposition, read off the reset state. -/
theorem lawsHoldAtReset : Obligations.LawsHoldAtReset := by
  unfold Obligations.LawsHoldAtReset
  intro straps s
  refine ⟨rfl, ?_, rfl, rfl, rfl, holderLaw_resetWith straps⟩
  refine (moreLaw_iff s).2 fun n hm => ?_
  rw [show s.node n = ⟨0, false, none, false⟩ from Vector.getElem_replicate n.isLt] at hm
  cases hm

/-- Settles O1: the front by the step's own case, the idle step where no leg has a waiting report. -/
theorem stepTakesFront : Obligations.StepTakesFront := by
  unfold Obligations.StepTakesFront StepIsExecOfTheFront EmptyQueueIdles
  refine ⟨fun c rest s => rfl, fun s hp hn => ?_⟩
  have none : Leg.all.find? s.newFronts.get = none := by simp [hn]
  rw [step, hp]
  simp only [takeWaitingReport, none]

end Sys2Proof.Proofs
end

section
/-! SUPPORT. A whole event as its owner's effect, the lane interface's part and a reset make it: which configuration it
leaves as it was, and what it does to the slots (R1, R2, R6, R16, R173, R182, R183). -/

namespace Sys2Proof.Machine

open Claims

variable {w : Writes} {k : Scope} {s t u : State} {h : FrameHead} {code : BitVec 6} {count : BitVec 4}
  {data : List Word} {effect : Client → State → Effect} {lane : Lane}

/-- Mild up to the lane interface's own registers: the station stands, and the transmitters but for LANE. -/
structure Moves (w : Writes) (s t : State) : Prop where
  mild : Mild { w with lanes := true } s t
  station : t.lanes.station = s.lanes.station
  shut : w.lanes = false → t.lanes.shutA = s.lanes.shutA ∧ t.lanes.shutB = s.lanes.shutB

namespace Moves

theorem of_mild (h : Mild w s t) (hl : w.lanes = false := by rfl) : Moves w s t where
  mild := { h with lanes := nofun }
  station := congrArg _ (h.lanes hl)
  shut _ := ⟨congrArg _ (h.lanes hl), congrArg _ (h.lanes hl)⟩

theorem of_calm (h : Calm k s t) (he : k.ev = false := by rfl) (ha : k.adv = false ∨ w.adv = true := by exact .inl rfl)
    (hl : w.lanes = false := by rfl) : Moves w s t := of_mild (.of h he ha) hl

theorem refl (w : Writes) (s : State) : Moves w s s := ⟨.refl _ _, rfl, fun _ => ⟨rfl, rfl⟩⟩

/-- Nothing but the lane interface's other registers and the list of orders changes after the move. -/
theorem thenLanes (h : Moves w s t) {v : Lanes} (orders : List (Leg × Order)) (hs : v.station = t.lanes.station)
    (ha : v.shutA = t.lanes.shutA) (hb : v.shutB = t.lanes.shutB) :
    Moves w s { t with lanes := v, ordersSent := orders } where
  mild := { h.mild with lanes := nofun }
  station := hs.trans h.station
  shut hw := ⟨ha.trans (h.shut hw).1, hb.trans (h.shut hw).2⟩

/-- Nothing but the lane interface's other registers and the list of orders has changed before the move. -/
theorem afterLanes {v : Lanes} {orders : List (Leg × Order)} (h : Moves w { s with lanes := v, ordersSent := orders } t)
    (hs : v.station = s.lanes.station) (ha : v.shutA = s.lanes.shutA) (hb : v.shutB = s.lanes.shutB) : Moves w s t where
  mild := { h.mild with lanes := nofun }
  station := h.station.trans hs
  shut hw := ⟨(h.shut hw).1.trans ha, (h.shut hw).2.trans hb⟩

theorem ite {c : Prop} [Decidable c] {a b : State} (ha : c → Moves w s a) (hb : ¬c → Moves w s b) :
    Moves w s (if c then a else b) := by
  split
  · exact ha ‹_›
  · exact hb ‹_›

end Moves

/-- What any command may write. -/
def Writes.everything : Writes := ⟨true, true, true, true, true, true, true, true, true, true, true⟩

theorem slotMild.fills {fill : Bool} {a b : Option FootRecord} {g g' : BitVec 4} (h : slotMild fill a b g g') :
    slotMild true a b g g' := by
  cases a with
  | none => exact h.imp_right (Or.imp_right fun hf => ⟨rfl, hf.2⟩)
  | some r => exact h

/-- What is left of Mild where nothing is said of what is written. -/
theorem Mild.anyWrites (h : Mild w s t) : Mild .everything s t :=
  { h with
    lanes := nofun, params := nofun, friction := nofun, nodes := nofun, terms := nofun, trips := nofun
    pattern := nofun, pointer := nofun, pose := nofun, unheld := nofun, slots := fun i => (h.slots i).fills }

theorem Moves.anyWrites (h : Moves w s t) : Moves .everything s t := ⟨h.mild.anyWrites, h.station, nofun⟩

/-! ### A frame's arrival and answer -/

/-- Whoever sends it, the command's effect writes no more than this. -/
def EffectMoves (w : Writes) (effect : Client → State → Effect) : Prop := ∀ c s, Moves w s (effect c s).2

/-- Whoever sends it, no reset is to follow the command's response. -/
def EffectWithoutReset (effect : Client → State → Effect) : Prop := ∀ c s, (effect c s).1.thenReset = false

theorem EffectMoves.of_mild (hm : ∀ {s} c, Mild w s (effect c s).2) (hl : w.lanes = false := by rfl) :
    EffectMoves w effect := fun c _ => .of_mild (hm c) hl

theorem EffectMoves.anyWrites (h : EffectMoves w effect) : EffectMoves .everything effect :=
  fun c s => (h c s).anyWrites

theorem Moves.noteCommand : Moves w s (s.noteCommand h code count) :=
  .ite (fun _ => .refl _ _) fun _ => (Moves.refl w s).thenLanes s.ordersSent rfl rfl rfl

theorem Moves.ofNoted (h' : Moves w (s.noteCommand h code count) t) : Moves w s t := by
  unfold State.noteCommand at h'
  split at h'
  · exact h'
  · exact h'.afterLanes rfl rfl rfl

/-- Where no reset is to follow, the answer touches nothing but the response in flight. -/
theorem Moves.respond {r : Reply} (h' : Moves w s t) (hr : r.thenReset = false) : Moves w s (t.respond h code r) := by
  unfold State.respond
  rw [hr]
  exact .ite (fun _ => h') fun _ => h'.thenLanes t.ordersSent rfl rfl rfl

theorem Moves.takeCommand {body : State → Effect} (hb : ∀ u, Moves w u (body u).2)
    (hr : ∀ u, (body u).1.thenReset = false) : Moves w s (s.takeCommand h code count body) :=
  have owner := (hb (s.noteCommand h code count)).ofNoted
  .ite (fun _ => owner) fun _ => owner.respond (hr _)

/-- A frame that finds no reset to come, and brings none, moves what its owner's effect moves. -/
theorem Moves.arrive (he : EffectMoves w effect) (hr : EffectWithoutReset effect)
    (hf : ∀ r, s.lanes.inFlight = some r → r.thenReset = false) :
    Moves w s (s.arrive h code count data effect) := by
  cases hs : s.sendingOn h.lane with
  | true => rw [State.arrive_sending hs]; exact .refl _ _
  | false =>
    cases ha : s.addressed h with
    | false => rw [State.arrive_elsewhere hs ha]; exact .refl _ _
    | true =>
      rw [State.arrive_cut hs ha hf]
      have malformed : Moves w s (s.setLanes { s.lanes with inFlight := none }).noteMalformed :=
        (Moves.refl w s).thenLanes s.ordersSent rfl rfl rfl
      dsimp only
      split
      · exact malformed
      · exact .ite (fun _ => malformed) fun _ =>
          Moves.afterLanes (.takeCommand (s := s.setLanes _) (he _) (hr _)) rfl rfl rfl

/-- A move, or the reset taken whole. -/
def MovesOrResets (s t : State) : Prop := Moves .everything s t ∨ ∃ straps, t = s.takeReset straps

theorem MovesOrResets.takeCommand {body : State → Effect} (hb : ∀ u, Moves .everything u (body u).2) :
    MovesOrResets s (s.takeCommand h code count body) := by
  have owner := (hb (s.noteCommand h code count)).ofNoted
  unfold State.takeCommand
  dsimp only
  split
  · exact .inl owner
  · unfold State.respond
    split
    · split
      · refine .inr ⟨(body (s.noteCommand h code count)).2.lanes.straps, ?_⟩
        unfold State.takeReset
        rw [owner.mild.pending]
      · exact .inl owner
    · exact .inl (owner.thenLanes _ rfl rfl rfl)

theorem MovesOrResets.arrive (he : EffectMoves .everything effect) :
    MovesOrResets s (s.arrive h code count data effect) := by
  cases hs : s.sendingOn h.lane with
  | true => rw [State.arrive_sending hs]; exact .inl (.refl _ _)
  | false =>
    cases ha : s.addressed h with
    | false => rw [State.arrive_elsewhere hs ha]; exact .inl (.refl _ _)
    | true =>
      by_cases hf : ∀ r, s.lanes.inFlight = some r → r.thenReset = false
      · rw [State.arrive_cut hs ha hf]
        have malformed : Moves .everything s (s.setLanes { s.lanes with inFlight := none }).noteMalformed :=
          (Moves.refl _ s).thenLanes s.ordersSent rfl rfl rfl
        dsimp only
        split
        · exact .inl malformed
        · split
          · exact .inl malformed
          · exact (MovesOrResets.takeCommand (s := s.setLanes _) (he _)).imp (fun m => m.afterLanes rfl rfl rfl) id
      · push Not at hf
        obtain ⟨r, hr, ht⟩ := hf
        rw [State.arrive_reset hs ha hr (Bool.eq_true_of_not_eq_false ht)]
        exact .inr ⟨_, rfl⟩

/-- An event moves what its effect moves. -/
theorem Moves.event {f : State → State} (hf : ∀ u, Moves w u (f u)) (hg : Machine.event s f = .next t) :
    Moves w s t := by
  obtain rfl := Host.Outcome.next.inj hg
  exact (hf { s with ordersSent := [] }).afterLanes rfl rfl rfl

theorem MovesOrResets.event {f : State → State} (hf : ∀ u, MovesOrResets u (f u))
    (hg : Machine.event s f = .next t) : MovesOrResets s t := by
  obtain rfl := Host.Outcome.next.inj hg
  exact (hf { s with ordersSent := [] }).imp (fun m => m.afterLanes rfl rfl rfl) id

/-! ### The owner's effect, by the command code table -/

theorem takeLane_moves (arrival : Lane) (l o : Word) : EffectMoves { lanes := true } (takeLane arrival l o) := by
  refine fun c s => ⟨takeLane_mild arrival l o c, ?_, nofun⟩
  unfold takeLane permitted
  split
  · split
    · split
      · rfl
      · split
        · rfl
        · rename_i m _ _ _ _ _
          cases m <;> rfl
    · rfl
  · rfl

theorem takeGait_moves (mode : Word) : EffectMoves { pattern := true } (takeGait mode) := by
  intro c s
  have other {body : Effect} (hb : Mild {} s body.2) : Mild { pattern := true } s body.2 :=
    { hb with pattern := nofun, pointer := nofun }
  refine .of_mild (gaitPermitted_mild ?_)
  unfold gaitEffect
  split
  · exact other standEffect_mild
  · exact other walkEffect_mild
  · exact other pauseEffect_mild
  · exact other offEffect_mild
  · exact other haltEffect_mild
  · exact patternEffect_mild .forward
  · exact patternEffect_mild .backward
  · exact .refl _ _
  · exact .refl _ _

theorem takeTrip_moves (trip operation mode action terms window : Word) :
    EffectMoves { trips := true } (takeTrip trip operation mode action terms window) := by
  intro c s
  have other {t : State} (hb : Mild {} s t) : Mild { trips := true } s t := { hb with trips := nofun }
  unfold takeTrip permitted
  split
  · split
    · exact .refl _ _
    · split
      · exact .of_mild (configureEffect_mild _ _ _ _ _)
      · exact .of_mild (other (armEffect_mild _))
      · exact .of_mild (other (disarmEffect_mild _))
      · exact .refl _ _
  · exact .refl _ _

/-- The writes of one command, whatever they are, are among all. -/
theorem effectMoves_everything (hm : ∀ {s} c, Mild w s (effect c s).2) (hl : w.lanes = false := by rfl) :
    EffectMoves .everything effect := (EffectMoves.of_mild hm hl).anyWrites

theorem effectOf_moves : ∀ e ∈ effectOf lane code data, EffectMoves .everything e := by
  unfold effectOf
  split
  · exact forall_mem_words4 fun x y z k => effectMoves_everything (takeSubmit_mild x y z k)
  · exact forall_mem_words6 fun a m x y z k => effectMoves_everything (takeAmend_mild a m x y z k)
  · exact forall_mem_words1 fun a => effectMoves_everything (takeQuery_mild a)
  · exact forall_mem_words4 fun x y r m => effectMoves_everything (takeFind_mild x y r m)
  · exact forall_mem_words1 fun a => effectMoves_everything (takeRetire_mild a)
  · exact forall_mem_words6 fun a x y z k f => effectMoves_everything (takeRestore_mild a x y z k f)
  · exact forall_mem_words3 fun x y z => effectMoves_everything (takeRebase_mild x y z)
  · exact forall_mem_words2 fun l a => effectMoves_everything (takeReserve_mild l a)
  · exact forall_mem_words1 fun a => effectMoves_everything (takeCancel_mild a)
  · exact forall_mem_words1 fun l => effectMoves_everything (takeQueue_mild l)
  · exact forall_mem_words2 fun l a => effectMoves_everything (takeAdopt_mild l a)
  · exact forall_mem_words1 fun l => effectMoves_everything (takeRedirect_mild l)
  · exact forall_mem_words1 fun l => effectMoves_everything (takeLegstate_mild l)
  · exact forall_mem_words1 fun l => effectMoves_everything (takeRelink_mild l)
  · exact forall_mem_words1 fun m => (takeGait_moves m).anyWrites
  · exact forall_mem_words0 (effectMoves_everything takeResume_mild)
  · exact forall_mem_words4 fun x y p r => effectMoves_everything (takePose_mild x y p r)
  · exact forall_mem_words0 (effectMoves_everything takeMargin_mild)
  · exact forall_mem_words6 fun n e src l r v => effectMoves_everything (takeTerm_mild n e src l r v)
  · exact forall_mem_words6 fun n o m a k w => (takeTrip_moves n o m a k w).anyWrites
  · exact forall_mem_words0 (effectMoves_everything takeTripstate_mild)
  · exact forall_mem_words3 fun n p f => effectMoves_everything (takeAttention_mild n p f)
  · exact forall_mem_words0 (effectMoves_everything takeVector_mild)
  · exact forall_mem_words0 (effectMoves_everything takeCondition_mild)
  · exact forall_mem_words0 (effectMoves_everything takeClearcond_mild)
  · exact forall_mem_words0 (effectMoves_everything takeStatus_mild)
  · exact forall_mem_words0 (effectMoves_everything takeLastcmd_mild)
  · exact forall_mem_words2 fun l o => (takeLane_moves lane l o).anyWrites
  · exact forall_mem_words0 (effectMoves_everything takeResetCommand_mild)
  · exact forall_mem_words2 fun p v => effectMoves_everything (takeSetparam_mild p v)
  · exact forall_mem_words1 fun p => effectMoves_everything (takeGetparam_mild p)
  · exact forall_mem_words3 fun k f d => effectMoves_everything (takeFriction_mild k f d)
  · exact forall_mem_words1 fun k => effectMoves_everything (takeGetfriction_mild k)
  · exact nofun

/-! ### The events that no client's frame brings -/

theorem execRebaseWalkCompletion_moves (hg : execRebaseWalkCompletion s = .next t) : Moves {} s t := by
  refine .event (fun u => ?_) hg
  split
  · exact .refl _ _
  · exact .ite (fun _ => .of_mild (State.completeWalk_mild _)) fun _ => .refl _ _

theorem execLift_moves (hg : execLift s = .next t) : Moves {} s t := by
  refine .event (fun u => ?_) hg
  split
  · exact .refl _ _
  · exact .ite (fun _ => .refl _ _) fun _ => .of_calm (State.takeLift_calm (k := .plain) _)

theorem execTripWindowExpiry_moves (n : Fin 4) (hg : execTripWindowExpiry n s = .next t) : Moves {} s t := by
  refine .event (fun u => .ite (fun _ => ?_) fun _ => .refl _ _) hg
  exact .of_calm (k := .plain) (State.setTrip_calm n _ rfl)

theorem execResponseEnd_movesOrResets (hg : execResponseEnd s = .next t) : MovesOrResets s t := by
  refine .event (fun u => ?_) hg
  split
  · exact .inl (.refl _ _)
  · exact .inr ⟨_, rfl⟩
  · exact .inl ((Moves.refl _ _).thenLanes _ rfl rfl rfl)

theorem execResponseEnd_moves (hf : ∀ r, s.lanes.inFlight = some r → r.thenReset = false)
    (hg : execResponseEnd s = .next t) : Moves w s t := by
  obtain rfl := Host.Outcome.next.inj hg
  refine Moves.afterLanes (v := s.lanes) (orders := []) ?_ rfl rfl rfl
  dsimp only
  split
  · exact .refl _ _
  · exact absurd (hf _ ‹_›) (by simp)
  · exact (Moves.refl _ _).thenLanes _ rfl rfl rfl

theorem State.setFrameFlag_moves : Moves w s s.setFrameFlag :=
  ⟨{ Mild.refl _ s with }, rfl, fun _ => ⟨rfl, rfl⟩⟩

theorem State.takeReport_moves (l : Leg) (flags normal tangential check : Word) :
    Moves {} s (s.takeReport l flags normal tangential check) :=
  .ite (fun _ => .of_calm (State.goodReport_calm (k := .ofPort) l _ _ rfl)) fun _ => State.setFrameFlag_moves

theorem State.frameArrives_movesOrResets (header check : Word) :
    MovesOrResets s (s.frameArrives lane header data check) := by
  unfold State.frameArrives
  split
  · exact .inl (.refl _ _)
  · split
    · exact .inl State.setFrameFlag_moves
    · refine .arrive fun c u => ?_
      cases he : effectOf lane (codeOf header) data with
      | none => exact .refl _ _
      | some e => exact effectOf_moves e he c u

/-- What an event that no frame brings may write. -/
def eventWrites : Instr → Writes
  | .settleTimerExpiry _ => { adv := true }
  | .poseTimerExpiry => { pose := true }
  | .sweepVisit | .rebaseWalkVisit | .storedContentDisturbance .. => { unheld := true }
  | _ => {}

/-- The rows without a client's frame that may take a reset. -/
def eventMayReset : Instr → Bool
  | .commandFrameCheckFailure .. | .frameForOtherStation .. | .malformedFrame .. | .powerOnReset _ | .responseEnd => true
  | _ => false

/-- An event of the block's own moves what its row may write. -/
theorem exec_moves_of_frameOf_eq_none {i : Instr} (hi : frameOf i = none) (hr : eventMayReset i = false)
    (hg : Gives i s t) : Moves (eventWrites i) s t := by
  cases i with
  | commandFrameCheckFailure | frameForOtherStation | malformedFrame | powerOnReset | responseEnd => cases hr
  | contactReport l f n w k => exact .event (fun u => u.takeReport_moves l f n w k) hg
  | echoTimerExpiry l => exact .event (fun _ => .of_calm (State.echoExpiry_calm (k := .ofPort) l rfl)) hg
  | livenessWindowEnd l => exact .event (fun _ => .of_calm (State.windowEnd_calm (k := .ofPort) l rfl)) hg
  | slipRearmTimerExpiry l => exact .event (fun _ => .of_calm (State.rearmExpiry_calm (k := .ofPort) l rfl)) hg
  | descentTimerExpiry l =>
    exact .event (fun _ => .ite (fun _ => .of_calm (State.missVoid_calm (k := .plain) l)) fun _ => .refl _ _) hg
  | settleTimerExpiry l =>
    exact .event (fun _ => .ite (fun _ => .of_calm (State.confirmStance_calm (k := ⟨true, false, false⟩) l rfl) rfl (.inr rfl))
      fun _ => .refl _ _) hg
  | swingTimerExpiry l =>
    exact .event (fun _ => .ite (fun _ => .of_calm (k := .plain) (.trans (Calm.setLeg l _) (State.haltCause_calm _)))
      fun _ => .refl _ _) hg
  | poseTimerExpiry => exact .event (fun _ => .ite (fun _ => .of_mild State.poseExpiry_mild) fun _ => .refl _ _) hg
  | tripWindowExpiry n => exact execTripWindowExpiry_moves n hg
  | sweepVisit => exact .event (fun _ => .of_mild State.sweepVisit_mild) hg
  | rebaseWalkVisit => exact .event (fun _ => .of_mild State.walkVisit_mild) hg
  | rebaseWalkCompletion => exact execRebaseWalkCompletion_moves hg
  | lift => exact execLift_moves hg
  | storedContentDisturbance i k => exact .event (fun _ => .of_mild (disturb_mild i k)) hg
  | _ => cases hi

/-- Every command and event moves or resets. -/
theorem exec_movesOrResets {i : Instr} (hg : Gives i s t) : MovesOrResets s t := by
  cases hi : frameOf i with
  | some frame =>
    obtain ⟨h, code, data⟩ := frame
    obtain ⟨e, he, hx⟩ := exec_eq_effectOf hi
    exact .event (fun _ => .arrive (effectOf_moves e he)) ((hx s).symm.trans hg)
  | none =>
    cases hr : eventMayReset i with
    | false => exact .inl (exec_moves_of_frameOf_eq_none hi hr hg).anyWrites
    | true =>
      cases i with
      | commandFrameCheckFailure | frameForOtherStation | malformedFrame =>
        exact .event (fun u => u.frameArrives_movesOrResets _ _) hg
      | powerOnReset straps => exact .event (fun _ => .inr ⟨straps, rfl⟩) hg
      | responseEnd => exact execResponseEnd_movesOrResets hg
      | _ => cases hr

end Sys2Proof.Machine
end

section
/-! SUPPORT. No command but RESET answers with a reset to follow (R183), so every other command that finds none waiting
moves what its own row may write. -/

namespace Sys2Proof.Machine

open Claims

variable {w : Writes} {s t : State} {h : FrameHead} {code : BitVec 6} {data : List Word}
  {effect : Client → State → Effect}

/-! ### The replies -/

theorem takeSubmit_withoutReset (x y z k : Word) : EffectWithoutReset (takeSubmit x y z k) := by
  intro c s
  unfold takeSubmit permittedIdle permitted
  repeat' split
  all_goals rfl

theorem takeAmend_withoutReset (a m x y z k : Word) : EffectWithoutReset (takeAmend a m x y z k) := by
  intro c s
  unfold takeAmend permittedIdle permitted amendRecord amendNothing amendReserved
  dsimp only
  repeat' split
  all_goals rfl

theorem takeQuery_withoutReset (a : Word) : EffectWithoutReset (takeQuery a) := by
  intro c s
  unfold takeQuery permittedIdle permitted
  repeat' split
  all_goals rfl

theorem takeFind_withoutReset (x y r m : Word) : EffectWithoutReset (takeFind x y r m) := by
  intro c s
  unfold takeFind permittedIdle permitted
  repeat' split
  all_goals rfl

theorem takeRetire_withoutReset (a : Word) : EffectWithoutReset (takeRetire a) := by
  intro c s
  unfold takeRetire permittedIdle permitted retireRecord
  repeat' split
  all_goals rfl

theorem takeRestore_withoutReset (a x y z k f : Word) : EffectWithoutReset (takeRestore a x y z k f) := by
  intro c s
  unfold takeRestore permittedIdle permitted
  repeat' split
  all_goals rfl

theorem takeRebase_withoutReset (x y z : Word) : EffectWithoutReset (takeRebase x y z) := by
  intro c s
  unfold takeRebase permittedIdle permitted
  repeat' split
  all_goals rfl

theorem takeReserve_withoutReset (l a : Word) : EffectWithoutReset (takeReserve l a) := by
  intro c s
  unfold takeReserve permittedIdle permitted reserveChecks
  repeat' split
  all_goals rfl

theorem takeCancel_withoutReset (a : Word) : EffectWithoutReset (takeCancel a) := by
  intro c s
  unfold takeCancel permittedIdle permitted
  repeat' split
  all_goals rfl

theorem takeQueue_withoutReset (l : Word) : EffectWithoutReset (takeQueue l) := by
  intro c s
  unfold takeQueue permitted
  repeat' split
  all_goals rfl

theorem takeAdopt_withoutReset (l a : Word) : EffectWithoutReset (takeAdopt l a) := by
  intro c s
  unfold takeAdopt permittedIdle permitted adoptChecks
  repeat' split
  all_goals rfl

theorem takeRedirect_withoutReset (l : Word) : EffectWithoutReset (takeRedirect l) := by
  intro c s
  unfold takeRedirect permittedIdle permitted redirectChecks
  repeat' split
  all_goals rfl

theorem takeLegstate_withoutReset (l : Word) : EffectWithoutReset (takeLegstate l) := by
  intro c s
  unfold takeLegstate permitted
  repeat' split
  all_goals rfl

theorem takeRelink_withoutReset (l : Word) : EffectWithoutReset (takeRelink l) := by
  intro c s
  unfold takeRelink permitted
  repeat' split
  all_goals rfl

theorem takeResume_withoutReset : EffectWithoutReset takeResume := by
  intro c s
  unfold takeResume
  repeat' split
  all_goals rfl

theorem takePose_withoutReset (x y p r : Word) : EffectWithoutReset (takePose x y p r) := by
  intro c s
  unfold takePose permittedIdle permitted
  repeat' split
  all_goals rfl

theorem takeMargin_withoutReset : EffectWithoutReset takeMargin := by
  intro c s
  unfold takeMargin permittedIdle permitted
  repeat' split
  all_goals rfl

theorem takeTerm_withoutReset (n e src l r v : Word) : EffectWithoutReset (takeTerm n e src l r v) := by
  intro c s
  unfold takeTerm permitted
  repeat' split
  all_goals rfl

theorem takeTrip_withoutReset (n o m a k w : Word) : EffectWithoutReset (takeTrip n o m a k w) := by
  intro c s
  unfold takeTrip permitted configureEffect armEffect disarmEffect
  repeat' split
  all_goals rfl

theorem takeTripstate_withoutReset : EffectWithoutReset takeTripstate := by
  intro c s
  unfold takeTripstate permitted
  repeat' split
  all_goals rfl

theorem takeAttention_withoutReset (n p f : Word) : EffectWithoutReset (takeAttention n p f) := by
  intro c s
  unfold takeAttention permitted
  repeat' split
  all_goals rfl

theorem takeVector_withoutReset : EffectWithoutReset takeVector := by
  intro c s
  unfold takeVector permitted
  repeat' split
  all_goals rfl

theorem takeCondition_withoutReset : EffectWithoutReset takeCondition := by
  intro c s
  unfold takeCondition permitted
  repeat' split
  all_goals rfl

theorem takeClearcond_withoutReset : EffectWithoutReset takeClearcond := by
  intro c s
  unfold takeClearcond permitted
  repeat' split
  all_goals rfl

theorem takeStatus_withoutReset : EffectWithoutReset takeStatus := by
  intro c s
  unfold takeStatus permitted
  repeat' split
  all_goals rfl

theorem takeLastcmd_withoutReset : EffectWithoutReset takeLastcmd := by
  intro c s
  unfold takeLastcmd permitted
  repeat' split
  all_goals rfl

theorem takeLane_withoutReset (arrival : Lane) (l o : Word) : EffectWithoutReset (takeLane arrival l o) := by
  intro c s
  unfold takeLane permitted
  repeat' split
  all_goals rfl

theorem takeSetparam_withoutReset (p v : Word) : EffectWithoutReset (takeSetparam p v) := by
  intro c s
  unfold takeSetparam permitted
  repeat' split
  all_goals rfl

theorem takeGetparam_withoutReset (p : Word) : EffectWithoutReset (takeGetparam p) := by
  intro c s
  unfold takeGetparam permitted
  repeat' split
  all_goals rfl

theorem takeFriction_withoutReset (k f d : Word) : EffectWithoutReset (takeFriction k f d) := by
  intro c s
  unfold takeFriction permitted
  repeat' split
  all_goals rfl

theorem takeGetfriction_withoutReset (k : Word) : EffectWithoutReset (takeGetfriction k) := by
  intro c s
  unfold takeGetfriction permitted
  repeat' split
  all_goals rfl

theorem gaitEffect_withoutReset (mode : Word) (s : State) : (gaitEffect mode s).1.thenReset = false := by
  unfold gaitEffect standEffect walkEffect pauseEffect offEffect haltEffect patternEffect
  repeat' split
  all_goals rfl

/-- A GAIT row's effect is the one that its mode word names. -/
theorem gaitPermitted_withoutReset (mode : Word) :
    EffectWithoutReset fun c s => gaitPermitted c s (gaitEffect mode s) := by
  intro c s
  dsimp only [gaitPermitted]
  split
  · exact gaitEffect_withoutReset mode s
  · rfl

/-! ### The writes of each row -/

/-- What a command or event that takes no reset may write. -/
def rowWrites : Instr → Writes
  | .setparam .. => { params := true }
  | .friction .. => { friction := true }
  | .attention .. => { nodes := true }
  | .term .. => { terms := true }
  | .tripConfigure .. => { trips := true }
  | .gaitForward _ | .gaitBackward _ => { pattern := true }
  | .pose .. | .rebase .. => { pose := true }
  | .laneShut .. | .laneOpen .. => { lanes := true }
  | .submit .. => { unheld := true, fill := true }
  | .amend .. | .query .. | .find .. | .retire .. | .reserve .. | .adopt .. => { unheld := true }
  | i => eventWrites i

theorem frameEvent_moves (hf : ∀ r, s.lanes.inFlight = some r → r.thenReset = false) (he : EffectMoves w effect)
    (hr : EffectWithoutReset effect) (hg : frameEvent s h code data effect = .next t) : Moves w s t := by
  obtain rfl := Host.Outcome.next.inj hg
  exact Moves.afterLanes (v := s.lanes) (orders := []) (.arrive he hr hf) rfl rfl rfl

/-- GAIT REPORT, and a mode outside the table, answer alone. -/
theorem takeGait_report_moves {mode : Word} (hm : 7 ≤ mode.toNat) : EffectMoves {} (takeGait mode) := by
  refine fun c s => .of_mild (gaitPermitted_mild ?_)
  unfold gaitEffect
  split
  case h_8 | h_9 => exact .refl _ _
  all_goals omega

/-- TRIP ARM and DISARM leave the configurations. -/
theorem takeTrip_operate_moves {operation : Word} (trip mode action terms window : Word)
    (ho : operation.toNat = 1 ∨ operation.toNat = 2) :
    EffectMoves {} (takeTrip trip operation mode action terms window) := by
  refine fun c s => .of_mild (.ifPermitted ?_)
  split
  · exact .refl _ _
  · split
    · omega
    · exact armEffect_mild _
    · exact disarmEffect_mild _
    · exact .refl _ _

/-- Where no reset waits, a command or event that takes none moves what its row may write. -/
theorem exec_moves {i : Instr} (ho : Ordinary i s) (hg : Gives i s t) : Moves (rowWrites i) s t := by
  obtain ⟨hf, hi⟩ := ho
  cases i with
  | submit h x y z k =>
    exact frameEvent_moves hf (.of_mild (takeSubmit_mild x y z k)) (takeSubmit_withoutReset x y z k) hg
  | amend h a m x y z k =>
    exact frameEvent_moves hf (.of_mild (takeAmend_mild a m x y z k)) (takeAmend_withoutReset a m x y z k) hg
  | query h a => exact frameEvent_moves hf (.of_mild (takeQuery_mild a)) (takeQuery_withoutReset a) hg
  | find h x y r m => exact frameEvent_moves hf (.of_mild (takeFind_mild x y r m)) (takeFind_withoutReset x y r m) hg
  | retire h a => exact frameEvent_moves hf (.of_mild (takeRetire_mild a)) (takeRetire_withoutReset a) hg
  | restore h a x y z k f =>
    exact frameEvent_moves hf (.of_mild (takeRestore_mild a x y z k f)) (takeRestore_withoutReset a x y z k f) hg
  | rebase h x y z => exact frameEvent_moves hf (.of_mild (takeRebase_mild x y z)) (takeRebase_withoutReset x y z) hg
  | reserve h l a => exact frameEvent_moves hf (.of_mild (takeReserve_mild l a)) (takeReserve_withoutReset l a) hg
  | cancel h a => exact frameEvent_moves hf (.of_mild (takeCancel_mild a)) (takeCancel_withoutReset a) hg
  | queue h l => exact frameEvent_moves hf (.of_mild (takeQueue_mild l)) (takeQueue_withoutReset l) hg
  | adopt h l a => exact frameEvent_moves hf (.of_mild (takeAdopt_mild l a)) (takeAdopt_withoutReset l a) hg
  | redirect h l => exact frameEvent_moves hf (.of_mild (takeRedirect_mild l)) (takeRedirect_withoutReset l) hg
  | legstate h l => exact frameEvent_moves hf (.of_mild (takeLegstate_mild l)) (takeLegstate_withoutReset l) hg
  | relink h l => exact frameEvent_moves hf (.of_mild (takeRelink_mild l)) (takeRelink_withoutReset l) hg
  | resume h => exact frameEvent_moves hf (.of_mild takeResume_mild) takeResume_withoutReset hg
  | pose h x y p r => exact frameEvent_moves hf (.of_mild (takePose_mild x y p r)) (takePose_withoutReset x y p r) hg
  | margin h => exact frameEvent_moves hf (.of_mild takeMargin_mild) takeMargin_withoutReset hg
  | term h n e src l r v =>
    exact frameEvent_moves hf (.of_mild (takeTerm_mild n e src l r v)) (takeTerm_withoutReset n e src l r v) hg
  | tripstate h => exact frameEvent_moves hf (.of_mild takeTripstate_mild) takeTripstate_withoutReset hg
  | attention h n p f =>
    exact frameEvent_moves hf (.of_mild (takeAttention_mild n p f)) (takeAttention_withoutReset n p f) hg
  | vector h => exact frameEvent_moves hf (.of_mild takeVector_mild) takeVector_withoutReset hg
  | condition h => exact frameEvent_moves hf (.of_mild takeCondition_mild) takeCondition_withoutReset hg
  | clearcond h => exact frameEvent_moves hf (.of_mild takeClearcond_mild) takeClearcond_withoutReset hg
  | status h => exact frameEvent_moves hf (.of_mild takeStatus_mild) takeStatus_withoutReset hg
  | lastcmd h => exact frameEvent_moves hf (.of_mild takeLastcmd_mild) takeLastcmd_withoutReset hg
  | laneShut h l o =>
    exact frameEvent_moves hf (takeLane_moves h.lane l o) (takeLane_withoutReset h.lane l o) hg
  | laneOpen h l =>
    exact frameEvent_moves hf (takeLane_moves h.lane l 1) (takeLane_withoutReset h.lane l 1) hg
  | setparam h p v => exact frameEvent_moves hf (.of_mild (takeSetparam_mild p v)) (takeSetparam_withoutReset p v) hg
  | getparam h p => exact frameEvent_moves hf (.of_mild (takeGetparam_mild p)) (takeGetparam_withoutReset p) hg
  | friction h k f d =>
    exact frameEvent_moves hf (.of_mild (takeFriction_mild k f d)) (takeFriction_withoutReset k f d) hg
  | getfriction h k => exact frameEvent_moves hf (.of_mild (takeGetfriction_mild k)) (takeGetfriction_withoutReset k) hg
  | gaitStand h =>
    exact frameEvent_moves hf (.of_mild fun _ => gaitPermitted_mild standEffect_mild) (gaitPermitted_withoutReset 0) hg
  | gaitWalk h =>
    exact frameEvent_moves hf (.of_mild fun _ => gaitPermitted_mild walkEffect_mild) (gaitPermitted_withoutReset 1) hg
  | gaitPause h =>
    exact frameEvent_moves hf (.of_mild fun _ => gaitPermitted_mild pauseEffect_mild) (gaitPermitted_withoutReset 2) hg
  | gaitOff h =>
    exact frameEvent_moves hf (.of_mild fun _ => gaitPermitted_mild offEffect_mild) (gaitPermitted_withoutReset 3) hg
  | gaitHalt h =>
    exact frameEvent_moves hf (.of_mild fun _ => gaitPermitted_mild haltEffect_mild) (gaitPermitted_withoutReset 4) hg
  | gaitForward h =>
    exact frameEvent_moves hf (.of_mild fun _ => gaitPermitted_mild (patternEffect_mild .forward))
      (gaitPermitted_withoutReset 5) hg
  | gaitBackward h =>
    exact frameEvent_moves hf (.of_mild fun _ => gaitPermitted_mild (patternEffect_mild .backward))
      (gaitPermitted_withoutReset 6) hg
  | gaitReport h mode => exact frameEvent_moves hf (takeGait_report_moves hi) (gaitPermitted_withoutReset mode) hg
  | tripConfigure h n o m a k w =>
    exact frameEvent_moves hf (takeTrip_moves n o m a k w) (takeTrip_withoutReset n o m a k w) hg
  | tripArm h n m a k w =>
    exact frameEvent_moves hf (takeTrip_operate_moves n m a k w (.inl rfl)) (takeTrip_withoutReset n 1 m a k w) hg
  | tripDisarm h n m a k w =>
    exact frameEvent_moves hf (takeTrip_operate_moves n m a k w (.inr rfl)) (takeTrip_withoutReset n 2 m a k w) hg
  | commandFrameCheckFailure | frameForOtherStation | malformedFrame | powerOnReset | reset => exact hi.elim
  | responseEnd => exact execResponseEnd_moves hf hg
  | _ => exact exec_moves_of_frameOf_eq_none rfl rfl hg

end Sys2Proof.Machine
end

section
/-! SUPPORT. The statements about every command and event: the waiting commands, the generations, the configuration. -/

namespace Sys2Proof.Proofs

open Machine Claims

theorem exec_next (c : Instr) (s : State) : ∃ t, Gives c s t := by
  cases c <;> exact ⟨_, rfl⟩

/-- Settles O2: an event moves or resets, and both leave the queue. -/
theorem commandsKeepTheQueue : Obligations.CommandsKeepTheQueue := by
  unfold Obligations.CommandsKeepTheQueue
  intro c s
  obtain ⟨t, hg⟩ := exec_next c s
  refine ⟨t, hg, ?_⟩
  rcases exec_movesOrResets hg with moved | ⟨straps, rfl⟩
  · exact moved.mild.pending
  · rfl

/-- A slot that moves advances its generation when it is freed, and keeps its record's origin (R2, R6, R16). -/
theorem slotMild_gen {fill : Bool} {a b : Option FootRecord} {g g' : BitVec 4} (h : slotMild fill a b g g') :
    g' = (if a ≠ none ∧ b = none then g + 1 else g)
    ∧ ∀ r r', a = some r → b = some r' → r'.origin = r.origin := by
  cases a with
  | none => exact ⟨by simpa using h.1, fun _ _ hr _ => by cases hr⟩
  | some r =>
    rcases h with ⟨r', rfl, ho, rfl⟩ | ⟨rfl, rfl⟩
    · refine ⟨by simp, fun _ _ hr hr' => ?_⟩
      cases hr
      cases hr'
      exact ho
    · exact ⟨by simp, fun _ _ _ hr' => by cases hr'⟩

/-- Settles O10: an event moves, slot by slot, or resets. -/
theorem generationsAdvanceAtFreeAlone : Obligations.GenerationsAdvanceAtFreeAlone := by
  unfold Obligations.GenerationsAdvanceAtFreeAlone
  intro c s t hg
  rcases exec_movesOrResets hg with moved | ⟨straps, rfl⟩
  · exact .inr fun i => slotMild_gen (moved.mild.slots i)
  · exact .inl ⟨straps, rfl⟩

/-- Settles O50: each part of what exec_moves leaves, where the row is none of its writers. -/
theorem configurationHasItsWriters : Obligations.ConfigurationHasItsWriters := by
  unfold Obligations.ConfigurationHasItsWriters
  intro i s t ho hg
  obtain ⟨mild, station, shut⟩ := exec_moves ho hg
  refine ⟨fun hi => mild.params ?_, fun hi => mild.friction ?_, fun hi => mild.nodes ?_, fun hi n => ?_, fun hi n => ?_,
    fun hf hb => mild.pattern ?_, fun hs hop => shut ?_, station, fun hp hr he => mild.pose ?_,
    fun hu j => mild.unheld ?_ j⟩
  · cases i with
    | setparam h p v => exact absurd rfl (hi h p v)
    | _ => rfl
  · cases i with
    | friction h k c d => exact absurd rfl (hi h k c d)
    | _ => rfl
  · cases i with
    | attention h n p f => exact absurd rfl (hi h n p f)
    | _ => rfl
  · have same := mild.terms (by
      cases i with
      | term h n e src l r v => exact absurd rfl (hi h n e src l r v)
      | _ => rfl) n
    simp only [WatchTerm.config, Prod.mk.injEq] at same
    obtain ⟨he, hs, hl, hr, ht⟩ := same
    simp only [← he, ← hs, ← hl, ← hr, ← ht]
  · have same := mild.trips (by
      cases i with
      | tripConfigure h n o m a w d => exact absurd rfl (hi h n o m a w d)
      | _ => rfl) n
    simp only [Trip.config, Prod.mk.injEq] at same
    obtain ⟨hm, hk, hf, hs, hw, ha⟩ := same
    simp only [← hm, ← hk, ← hf, ← hs, ← hw, ← ha]
  · cases i with
    | gaitForward h => exact absurd rfl (hf h)
    | gaitBackward h => exact absurd rfl (hb h)
    | _ => rfl
  · cases i with
    | laneShut h l o => exact absurd rfl (hs h l o)
    | laneOpen h l => exact absurd rfl (hop h l)
    | _ => rfl
  · cases i with
    | pose h x y p r => exact absurd rfl (hp h x y p r)
    | rebase h x y z => exact absurd rfl (hr h x y z)
    | poseTimerExpiry => exact absurd rfl he
    | _ => rfl
  · cases i with
    | submit | amend | query | find | retire | reserve | adopt | sweepVisit | rebaseWalkVisit
    | storedContentDisturbance => cases hu
    | _ => rfl

end Sys2Proof.Proofs
end

section
/-! SUPPORT. The board: what the legs hold and what the records say of their holders, apart from the rest of the state. The
law of the holders is a law of the board, and each change of holder is a change of the board that keeps it (R5, R8 to R13,
R47, R56 to R60, R89). -/

namespace Sys2Proof.Machine

/-- The three ways in which a leg holds a record (R5). -/
inductive Hold where
  | queued
  | stood
  | aimed
  deriving DecidableEq

/-- What a record's state says of its holder. -/
def RecordState.hold : RecordState → Option (Hold × Leg)
  | .reserved l => some (.queued, l)
  | .loaded l _ => some (.stood, l)
  | .target l => some (.aimed, l)
  | .candidate | .suspect => none

/-- What the records say of their holders, the generations, and what the legs hold. -/
structure Board where
  mark : RecordIndex → Option (Hold × Leg)
  gen : RecordIndex → BitVec 4
  queue : Leg → List Handle
  phase : Leg → Phase
  stance : Leg → Option Handle
  target : Leg → Option Handle

/-- The board of a state. -/
def State.board (s : State) : Board where
  mark i := (s.slot i).bind fun r => r.state.hold
  gen := s.gen
  queue := s.queue
  phase l := (s.leg l).phase
  stance l := (s.leg l).stance
  target l := (s.leg l).target

/-- A handle is its index and its generation. -/
theorem Handle.eq_of_index_gen {h h' : Handle} (hi : h.index = h'.index) (hg : h.gen = h'.gen) : h = h' := by
  cases h
  cases h'
  cases hi
  cases hg
  rfl

namespace Board

variable {b : Board} {i : RecordIndex} {h : Handle} {l : Leg} {p : Phase}

/-- What a record says of its holder changes. -/
def setMark (b : Board) (i : RecordIndex) (m : Option (Hold × Leg)) : Board :=
  { b with mark := Function.update b.mark i m }

/-- An index's generation changes. -/
def setGen (b : Board) (i : RecordIndex) (g : BitVec 4) : Board := { b with gen := Function.update b.gen i g }

/-- A leg's queue changes. -/
def setQueue (b : Board) (l : Leg) (q : List Handle) : Board := { b with queue := Function.update b.queue l q }

/-- A leg's phase, stance record and target change. -/
def setLeg (b : Board) (l : Leg) (p : Phase) (stance target : Option Handle) : Board :=
  { b with
    phase := Function.update b.phase l p
    stance := Function.update b.stance l stance
    target := Function.update b.target l target }

/-- A record leaves a leg's queue. -/
def drop (b : Board) (l : Leg) (i : RecordIndex) : Board :=
  b.setQueue l ((b.queue l).filter fun h => h.index ≠ i)

/-- A leg holds nothing any longer and is LOST, and no record says that the leg holds it. -/
structure Loses (l : Leg) (b c : Board) : Prop where
  mark : ∀ i, c.mark i = if (b.mark i).map Prod.snd = some l then none else b.mark i
  gen : ∀ i, (b.mark i).map Prod.snd ≠ some l → c.gen i = b.gen i
  queue : ∀ m, c.queue m = if m = l then [] else b.queue m
  phase : ∀ m, c.phase m = if m = l then .lost else b.phase m
  stance : ∀ m, c.stance m = if m = l then none else b.stance m
  target : ∀ m, c.target m = if m = l then none else b.target m

/-- The law of the holders, for a board: what a leg holds are the current handles of the records that name it. -/
structure Lawful (b : Board) : Prop where
  short : ∀ l, (b.queue l).length ≤ 3
  once : ∀ l, ((b.queue l).map Handle.index).Nodup
  queued : ∀ l h, h ∈ b.queue l ↔ h.gen = b.gen h.index ∧ b.mark h.index = some (.queued, l)
  stood : ∀ l h, b.stance l = some h ↔ h.gen = b.gen h.index ∧ b.mark h.index = some (.stood, l)
  aimed : ∀ l h, b.target l = some h ↔ h.gen = b.gen h.index ∧ b.mark h.index = some (.aimed, l)
  standing : ∀ l, (b.stance l).isSome = Safety.stands (b.phase l)
  aiming : ∀ l, (b.target l).isSome = Safety.aims (b.phase l)

namespace Lawful

/-- A record that nobody holds is freed, or stays held by nobody. -/
theorem free (hb : b.Lawful) (hm : b.mark i = none) (g : BitVec 4) : ((b.setMark i none).setGen i g).Lawful := by
  obtain ⟨h1, h2, h3, h4, h5, h6, h7⟩ := hb
  constructor <;> simp only [setMark, setGen] <;> grind [Function.update_apply, Handle.eq_of_index_gen]

/-- A record leaves its queue for FREE or CANDIDATE (R56). -/
theorem leave (hb : b.Lawful) (hm : b.mark i = some (.queued, l)) (g : BitVec 4) :
    (((b.drop l i).setMark i none).setGen i g).Lawful := by
  obtain ⟨h1, h2, h3, h4, h5, h6, h7⟩ := hb
  constructor <;> simp only [drop, setQueue, setMark, setGen] <;> grind [Function.update_apply, Handle.eq_of_index_gen]

/-- A record joins a queue at the back (R52). -/
theorem join (hb : b.Lawful) (hm : b.mark h.index = none) (hg : h.gen = b.gen h.index)
    (hq : (b.queue l).length < 3) :
    ((b.setMark h.index (some (.queued, l))).setQueue l (b.queue l ++ [h])).Lawful := by
  obtain ⟨h1, h2, h3, h4, h5, h6, h7⟩ := hb
  constructor <;> simp only [setQueue, setMark] <;> grind [Function.update_apply, Handle.eq_of_index_gen]

/-- An IDLE leg stands on a record that nobody held (R91). -/
theorem stand (hb : b.Lawful) (hm : b.mark h.index = none) (hg : h.gen = b.gen h.index) (hp : b.phase l = .idle) :
    ((b.setMark h.index (some (.stood, l))).setLeg l .stance (some h) (b.target l)).Lawful := by
  obtain ⟨h1, h2, h3, h4, h5, h6, h7⟩ := hb
  constructor <;> simp only [setLeg, setMark] <;>
    grind [Function.update_apply, Handle.eq_of_index_gen, Safety.stands, Safety.aims]

/-- A leg's phase moves where what it holds is what the new phase holds. -/
theorem move (hb : b.Lawful) (hs : Safety.stands p = Safety.stands (b.phase l))
    (ha : Safety.aims p = Safety.aims (b.phase l)) : (b.setLeg l p (b.stance l) (b.target l)).Lawful := by
  obtain ⟨h1, h2, h3, h4, h5, h6, h7⟩ := hb
  constructor <;> simp only [setLeg] <;> grind [Function.update_apply, Handle.eq_of_index_gen]

/-- A leg without a target takes one out of its queue (R57). -/
theorem aim (hb : b.Lawful) (hh : h ∈ b.queue l) (ht : Safety.aims (b.phase l) = false)
    (hs : Safety.stands p = Safety.stands (b.phase l)) (ha : Safety.aims p = true) :
    (((b.drop l h.index).setMark h.index (some (.aimed, l))).setLeg l p (b.stance l) (some h)).Lawful := by
  obtain ⟨h1, h2, h3, h4, h5, h6, h7⟩ := hb
  have hn := h7 l
  constructor <;> simp only [drop, setQueue, setMark, setLeg] <;> grind [Function.update_apply, Handle.eq_of_index_gen]

/-- A leg takes a new target out of its queue in place of the old one (R110). -/
theorem redirect {old : Handle} (hb : b.Lawful) (hh : h ∈ b.queue l) (ho : b.target l = some old)
    (hs : Safety.stands p = Safety.stands (b.phase l)) (ha : Safety.aims p = true) :
    ((((b.setMark old.index none).drop l h.index).setMark h.index (some (.aimed, l))).setLeg l p (b.stance l)
      (some h)).Lawful := by
  obtain ⟨h1, h2, h3, h4, h5, h6, h7⟩ := hb
  have hn := h7 l
  constructor <;> simp only [drop, setQueue, setMark, setLeg] <;> grind [Function.update_apply, Handle.eq_of_index_gen]

/-- A leg's target goes, FREE or held by nobody (R10, R97, R99, R100, R108). -/
theorem miss (hb : b.Lawful) (hh : b.target l = some h) (hs : Safety.stands p = Safety.stands (b.phase l))
    (ha : Safety.aims p = false) (g : BitVec 4) :
    (((b.setMark h.index none).setGen h.index g).setLeg l p (b.stance l) none).Lawful := by
  obtain ⟨h1, h2, h3, h4, h5, h6, h7⟩ := hb
  constructor <;> simp only [setMark, setGen, setLeg] <;> grind [Function.update_apply, Handle.eq_of_index_gen]

/-- A leg's stance record goes, FREE or held by nobody (R11, R12, R93, R104). -/
theorem unload (hb : b.Lawful) (hh : b.stance l = some h) (hs : Safety.stands p = false)
    (ha : Safety.aims p = Safety.aims (b.phase l)) (g : BitVec 4) :
    (((b.setMark h.index none).setGen h.index g).setLeg l p none (b.target l)).Lawful := by
  obtain ⟨h1, h2, h3, h4, h5, h6, h7⟩ := hb
  constructor <;> simp only [setMark, setGen, setLeg] <;> grind [Function.update_apply, Handle.eq_of_index_gen]

/-- A leg's target becomes its stance record (R98). -/
theorem confirm (hb : b.Lawful) (hh : b.target l = some h) (hs : Safety.stands (b.phase l) = false) :
    ((b.setMark h.index (some (.stood, l))).setLeg l .stance (some h) none).Lawful := by
  obtain ⟨h1, h2, h3, h4, h5, h6, h7⟩ := hb
  have hn := h6 l
  constructor <;> simp only [setMark, setLeg] <;>
    grind [Function.update_apply, Handle.eq_of_index_gen, Safety.stands, Safety.aims]

/-- A withdrawn leg's target goes back to the front of its queue (R59). -/
theorem handBack (hb : b.Lawful) (hh : b.target l = some h) (hs : Safety.stands (b.phase l) = true)
    (hq : (b.queue l).length < 3) :
    (((b.setMark h.index (some (.queued, l))).setQueue l (h :: b.queue l)).setLeg l .stance (b.stance l)
      none).Lawful := by
  obtain ⟨h1, h2, h3, h4, h5, h6, h7⟩ := hb
  constructor <;> simp only [setMark, setQueue, setLeg] <;>
    grind [Function.update_apply, Handle.eq_of_index_gen, Safety.stands, Safety.aims]

/-- A withdrawn leg's target goes back to the front of its full queue, whose last entry leaves it (R59). -/
theorem handBackFull {x y z : Handle} (hb : b.Lawful) (hh : b.target l = some h) (hs : Safety.stands (b.phase l) = true)
    (hq : b.queue l = [x, y, z]) :
    ((((b.setMark h.index (some (.queued, l))).setQueue l [h, x, y]).setMark z.index none).setLeg l .stance (b.stance l)
      none).Lawful := by
  obtain ⟨h1, h2, h3, h4, h5, h6, h7⟩ := hb
  constructor <;> simp only [setMark, setQueue, setLeg] <;>
    grind [Function.update_apply, Handle.eq_of_index_gen, Safety.stands, Safety.aims]

/-- A lost leg lets go of all it holds (R109). -/
theorem lose {c : Board} (hb : b.Lawful) (hc : Loses l b c) : c.Lawful := by
  obtain ⟨h1, h2, h3, h4, h5, h6, h7⟩ := hb
  obtain ⟨hm, hg, hq, hp, hs, ht⟩ := hc
  constructor <;> grind [Function.update_apply, Handle.eq_of_index_gen, Safety.stands, Safety.aims]

end Lawful

end Board

end Sys2Proof.Machine
end

section
/-! SUPPORT. What each operation over the state does to the board, and the cascades that keep the law of the holders: a
cascade changes no leg but one in UNLOADING or SEEKING, and takes nothing but entries out of the other legs' queues (R5, R20,
R47, R56 to R59, R89, R94, R105, R121, R127). -/

namespace Sys2Proof.Machine

variable {s t u : State} {i : RecordIndex} {h : Handle} {l : Leg} {r : FootRecord} {p : Phase}

/-! ### The law of the holders is a law of the board -/

theorem RecordState.hold_eq_queued {st : RecordState} : st.hold = some (.queued, l) ↔ st = .reserved l := by
  cases st <;> simp [RecordState.hold]

theorem RecordState.hold_eq_aimed {st : RecordState} : st.hold = some (.aimed, l) ↔ st = .target l := by
  cases st <;> simp [RecordState.hold]

theorem RecordState.hold_eq_stood {st : RecordState} : st.hold = some (.stood, l) ↔ ∃ f, st = .loaded l f := by
  cases st <;> simp [RecordState.hold]

theorem FootRecord.hold_eq_none : r.state.hold = none ↔ r.Unheld := by
  unfold FootRecord.Unheld
  cases r.state <;> simp [RecordState.hold]

theorem State.board_mark (hr : s.slot i = some r) : s.board.mark i = r.state.hold := by simp [board, hr]

theorem State.board_mark_free (hr : s.slot i = none) : s.board.mark i = none := by simp [board, hr]

/-- A record that the board marks is the record of that state. -/
theorem State.slot_of_mark {m : Hold × Leg} (hm : s.board.mark i = some m) :
    ∃ r, s.slot i = some r ∧ r.state.hold = some m := by
  simpa [board, Option.bind_eq_some_iff] using hm

theorem State.board_mark_eq_some {m : Hold × Leg} :
    s.board.mark i = some m ↔ ∃ r, s.slot i = some r ∧ r.state.hold = some m := by
  simp [board, Option.bind_eq_some_iff]

theorem holderLaw_iff : Safety.HolderLaw s ↔ s.board.Lawful := by
  have current (h : Handle) (i : RecordIndex) (e : i = h.index) (g : h.gen = s.gen h.index) : s.handleOf i = h :=
    Handle.eq_of_index_gen e (by subst e; exact g.symm)
  constructor
  · intro k
    refine ⟨k.short, k.once, fun l h => ⟨fun hh => ?_, ?_⟩, fun l h => ⟨fun hh => ?_, ?_⟩, fun l h => ⟨fun hh => ?_, ?_⟩,
      k.standing, k.aiming⟩
    · obtain ⟨hg, r, hr, hs⟩ := k.queued l h hh
      exact ⟨hg, State.board_mark_eq_some.2 ⟨r, hr, RecordState.hold_eq_queued.2 hs⟩⟩
    · rintro ⟨hg, hm⟩
      obtain ⟨r, hr, hs⟩ := State.slot_of_mark hm
      exact current h _ rfl hg ▸ k.reserved _ r l hr (RecordState.hold_eq_queued.1 hs)
    · obtain ⟨hg, r, f, hr, hs⟩ := k.stood l h hh
      exact ⟨hg, State.board_mark_eq_some.2 ⟨r, hr, RecordState.hold_eq_stood.2 ⟨f, hs⟩⟩⟩
    · rintro ⟨hg, hm⟩
      obtain ⟨r, hr, hs⟩ := State.slot_of_mark hm
      obtain ⟨f, hs⟩ := RecordState.hold_eq_stood.1 hs
      exact current h _ rfl hg ▸ k.loaded _ r l f hr hs
    · obtain ⟨hg, r, hr, hs⟩ := k.aimed l h hh
      exact ⟨hg, State.board_mark_eq_some.2 ⟨r, hr, RecordState.hold_eq_aimed.2 hs⟩⟩
    · rintro ⟨hg, hm⟩
      obtain ⟨r, hr, hs⟩ := State.slot_of_mark hm
      exact current h _ rfl hg ▸ k.target _ r l hr (RecordState.hold_eq_aimed.1 hs)
  · intro k
    refine ⟨k.short, k.once, fun l h hh => ?_, fun l h hh => ?_, fun l h hh => ?_, fun i r l hr hs => ?_,
      fun i r l f hr hs => ?_, fun i r l hr hs => ?_, k.standing, k.aiming⟩
    · obtain ⟨hg, hm⟩ := (k.queued l h).1 hh
      obtain ⟨r, hr, hs⟩ := State.slot_of_mark hm
      exact ⟨hg, r, hr, RecordState.hold_eq_queued.1 hs⟩
    · obtain ⟨hg, hm⟩ := (k.stood l h).1 hh
      obtain ⟨r, hr, hs⟩ := State.slot_of_mark hm
      obtain ⟨f, hs⟩ := RecordState.hold_eq_stood.1 hs
      exact ⟨hg, r, f, hr, hs⟩
    · obtain ⟨hg, hm⟩ := (k.aimed l h).1 hh
      obtain ⟨r, hr, hs⟩ := State.slot_of_mark hm
      exact ⟨hg, r, hr, RecordState.hold_eq_aimed.1 hs⟩
    · exact (k.queued l _).2 ⟨rfl, State.board_mark_eq_some.2 ⟨r, hr, RecordState.hold_eq_queued.2 hs⟩⟩
    · exact (k.stood l _).2 ⟨rfl, State.board_mark_eq_some.2 ⟨r, hr, RecordState.hold_eq_stood.2 ⟨f, hs⟩⟩⟩
    · exact (k.aimed l _).2 ⟨rfl, State.board_mark_eq_some.2 ⟨r, hr, RecordState.hold_eq_aimed.2 hs⟩⟩

/-- Under the law a queue's entry is the current handle of a record RESERVED for the leg. -/
theorem State.slot_of_queued (hb : s.board.Lawful) (hh : h ∈ s.queue l) :
    ∃ r, s.slot h.index = some r ∧ r.state = .reserved l := ((holderLaw_iff.2 hb).queued l h hh).2

/-- Under the law a stance record is LOADED for the leg. -/
theorem State.slot_of_stance (hb : s.board.Lawful) (hh : (s.leg l).stance = some h) :
    ∃ r f, s.slot h.index = some r ∧ r.state = .loaded l f := ((holderLaw_iff.2 hb).stood l h hh).2

/-- Under the law a target is TARGET for the leg. -/
theorem State.slot_of_target (hb : s.board.Lawful) (hh : (s.leg l).target = some h) :
    ∃ r, s.slot h.index = some r ∧ r.state = .target l := ((holderLaw_iff.2 hb).aimed l h hh).2

/-! ### What the operations do to the board -/

@[simp] theorem Board.setMark_self (b : Board) (i : RecordIndex) : b.setMark i (b.mark i) = b := by simp [Board.setMark]

@[simp] theorem Board.setGen_self (b : Board) (i : RecordIndex) : b.setGen i (b.gen i) = b := by simp [Board.setGen]

@[simp] theorem State.board_setLeg (v : LegState) :
    (s.setLeg l v).board = s.board.setLeg l v.phase v.stance v.target := by
  unfold State.board Board.setLeg
  congr 1 <;> ext m : 1 <;> simp [State.leg_setLeg, Function.update_apply, eq_comm (a := l)] <;> split <;> rfl

@[simp] theorem State.board_setQueue (q : List Handle) : (s.setQueue l q).board = s.board.setQueue l q := by
  unfold State.board Board.setQueue
  congr 1
  ext m : 1
  simp [State.queue_setQueue, Function.update_apply, eq_comm (a := l)]

@[simp] theorem State.board_setSlot (o : Option FootRecord) :
    (s.setSlot i o).board = s.board.setMark i (o.bind fun r => r.state.hold) := by
  unfold State.board Board.setMark
  congr 1
  ext j : 1
  by_cases e : i = j
  · subst e
    simp
  · simp [State.slot_setSlot_ne s o e, Function.update_of_ne (Ne.symm e)]

@[simp] theorem State.board_setGen (g : BitVec 4) : (s.setGen i g).board = s.board.setGen i g := by
  unfold State.board Board.setGen
  congr 1
  ext j : 1
  simp [State.gen_setGen, Function.update_apply, eq_comm (a := i)]

@[simp] theorem State.board_pend (n : NodeNumber) (d : Detail) : (s.pend n d).board = s.board := rfl
@[simp] theorem State.board_setCheckFlag : s.setCheckFlag.board = s.board := rfl
@[simp] theorem State.board_setPort (v : Port) : (s.setPort l v).board = s.board := rfl
@[simp] theorem State.board_setSeq (q : Sequencer) : (s.setSeq q).board = s.board := rfl

@[simp] theorem State.board_sendOrder (k : OrderKind) (x y z : Word) : (s.sendOrder l k x y z).board = s.board := by
  unfold State.sendOrder
  dsimp only
  split <;> rfl

@[simp] theorem State.sendOrder_legs (k : OrderKind) (x y z : Word) : (s.sendOrder l k x y z).legs = s.legs := by
  unfold State.sendOrder
  dsimp only
  split <;> rfl

@[simp] theorem State.board_dropFromQueue : (s.dropFromQueue l i).board = s.board.drop l i :=
  State.board_setQueue _

theorem State.board_modRecord (f : FootRecord → FootRecord) (hr : s.slot i = some r) :
    (s.modRecord i f).board = s.board.setMark i (f r).state.hold := by
  simp [State.modRecord, hr]

theorem State.board_freeRecord (reason : RetireReason) (hr : s.slot i = some r) :
    (s.freeRecord i reason).board = (s.board.setMark i none).setGen i (s.gen i + 1) := by
  unfold State.freeRecord
  rw [hr]
  dsimp only
  split <;> simp

theorem State.board_freeFailed (hr : s.slot i = some r) :
    (s.freeFailed i).board = (s.board.setMark i none).setGen i (s.gen i + 1) :=
  State.board_freeRecord (s := s.setCheckFlag) .check hr

theorem State.board_failReserved (hr : s.slot i = some r) :
    (s.failReserved l i).board = ((s.board.drop l i).setMark i none).setGen i (s.gen i + 1) := by
  unfold State.failReserved
  rw [State.board_freeFailed (s := s.dropFromQueue l i) hr, State.board_dropFromQueue]
  rfl

theorem State.board_takeFront (hr : s.slot h.index = some r) (hs : r.state = .reserved l) :
    (s.takeFront l h).board = (s.board.drop l h.index).setMark h.index (some (.aimed, l)) := by
  unfold State.takeFront
  rw [State.board_modRecord (s := s.dropFromQueue l h.index) _ hr, State.board_dropFromQueue]
  simp [FootRecord.takeAsTarget, hs, FootRecord.moveTo, RecordState.hold]

@[simp] theorem State.board_enterSeeking :
    (s.enterSeeking l).board = s.board.setLeg l .seeking (s.leg l).stance none := by
  simp [State.enterSeeking, State.sendPlain]

@[simp] theorem State.board_backToStance :
    (s.backToStance l).board = s.board.setLeg l .stance (s.leg l).stance none := by
  simp [State.backToStance, State.sendPlain]

/-! ### Operations that change one leg at most -/

/-- Every leg but one, and its queue, stands as it was. -/
def KeepsOthers (l : Leg) (s t : State) : Prop := ∀ m, m ≠ l → t.leg m = s.leg m ∧ t.queue m = s.queue m

namespace KeepsOthers

theorem refl (l : Leg) (s : State) : KeepsOthers l s s := fun _ _ => ⟨rfl, rfl⟩

theorem trans (h : KeepsOthers l s t) (h' : KeepsOthers l t u) : KeepsOthers l s u :=
  fun m hm => ⟨(h' m hm).1.trans (h m hm).1, (h' m hm).2.trans (h m hm).2⟩

theorem of_eq (hl : t.legs = s.legs) (hq : t.queues = s.queues) : KeepsOthers l s t :=
  fun m _ => ⟨congrArg (PerLeg.get · m) hl, congrArg (PerLeg.get · m) hq⟩

theorem setLeg (l : Leg) (v : LegState) : KeepsOthers l s (s.setLeg l v) :=
  fun m hm => ⟨by simp [State.leg_setLeg, Ne.symm hm], rfl⟩

theorem setQueue (l : Leg) (q : List Handle) : KeepsOthers l s (s.setQueue l q) :=
  fun m hm => ⟨rfl, by simp [State.queue_setQueue, Ne.symm hm]⟩

end KeepsOthers

@[simp] theorem State.freeRecord_legs (reason : RetireReason) : (s.freeRecord i reason).legs = s.legs := by
  unfold State.freeRecord
  dsimp only
  repeat' split
  all_goals rfl

@[simp] theorem State.freeRecord_queues (reason : RetireReason) : (s.freeRecord i reason).queues = s.queues := by
  unfold State.freeRecord
  dsimp only
  repeat' split
  all_goals rfl

@[simp] theorem State.modRecord_legs (f : FootRecord → FootRecord) : (s.modRecord i f).legs = s.legs := by
  unfold State.modRecord
  split <;> rfl

@[simp] theorem State.modRecord_queues (f : FootRecord → FootRecord) : (s.modRecord i f).queues = s.queues := by
  unfold State.modRecord
  split <;> rfl

@[simp] theorem State.sendOrder_queues (k : OrderKind) (x y z : Word) : (s.sendOrder l k x y z).queues = s.queues := by
  unfold State.sendOrder
  dsimp only
  split <;> rfl

theorem State.sendPlain_others (m : Leg) (k : OrderKind) : KeepsOthers l s (s.sendPlain m k) :=
  .of_eq (State.sendOrder_legs ..) (State.sendOrder_queues ..)

theorem State.enterSeeking_others : KeepsOthers l s (s.enterSeeking l) :=
  (KeepsOthers.setLeg l _).trans (State.sendPlain_others _ _)

theorem State.backToStance_others : KeepsOthers l s (s.backToStance l) :=
  (KeepsOthers.setLeg l _).trans (State.sendPlain_others _ _)

theorem State.modRecord_others (f : FootRecord → FootRecord) : KeepsOthers l s (s.modRecord i f) :=
  .of_eq (State.modRecord_legs _) (State.modRecord_queues _)

theorem State.freeFailed_others : KeepsOthers l s (s.freeFailed i) :=
  .of_eq (State.freeRecord_legs (s := s.setCheckFlag) _) (State.freeRecord_queues (s := s.setCheckFlag) _)

theorem State.failReserved_others : KeepsOthers l s (s.failReserved l i) :=
  (KeepsOthers.setQueue l _).trans State.freeFailed_others

theorem State.takeFront_others : KeepsOthers l s (s.takeFront l h) :=
  (KeepsOthers.setQueue l _).trans (State.modRecord_others _)

theorem State.composePlace_others : KeepsOthers l s (s.composePlace l) := by
  unfold State.composePlace
  split
  · exact .refl _ _
  split
  · exact .refl _ _
  split
  · exact .refl _ _
  split
  · exact .of_eq (State.sendOrder_legs ..) (State.sendOrder_queues ..)
  · exact State.freeFailed_others.trans State.enterSeeking_others

theorem State.enterSwing_others : KeepsOthers l s (s.enterSwing l h) :=
  (State.takeFront_others.trans (KeepsOthers.setLeg l _)).trans State.composePlace_others

theorem State.handBackTarget_others : KeepsOthers l s (s.handBackTarget l h) := by
  unfold State.handBackTarget
  dsimp only
  split
  · exact (State.modRecord_others _).trans (.setQueue l _)
  · exact ((State.modRecord_others _).trans (.setQueue l _)).trans (State.modRecord_others _)

/-! ### Takes and withdrawals keep the law -/

theorem State.failReserved_lawful (hb : s.board.Lawful) (hr : s.slot i = some r) (hs : r.state = .reserved l) :
    (s.failReserved l i).board.Lawful := by
  rw [State.board_failReserved hr]
  exact hb.leave (by rw [State.board_mark hr, hs, RecordState.hold]) _

/-- A target that fails its check is freed, and its leg goes to a phase that has none. -/
theorem State.freeTarget_lawful (hb : s.board.Lawful) (ht : (s.leg l).target = some h)
    (hs : Safety.stands p = Safety.stands (s.leg l).phase) (ha : Safety.aims p = false) (hr : s.slot h.index = some r) :
    ((s.freeFailed h.index).board.setLeg l p (s.leg l).stance none).Lawful := by
  rw [State.board_freeFailed hr]
  exact hb.miss ht hs ha _

theorem State.freeFailed_leg (m : Leg) : (s.freeFailed i).leg m = s.leg m :=
  congrArg (PerLeg.get · m) (State.freeRecord_legs (s := s.setCheckFlag) _)

/-- PLACE is composed in a leg that has left its stance record. -/
theorem State.composePlace_lawful (hb : s.board.Lawful) (hp : Safety.stands (s.leg l).phase = false) :
    (s.composePlace l).board.Lawful := by
  unfold State.composePlace
  split
  · exact hb
  rename_i h ht
  split
  · exact hb
  rename_i r hr
  split
  · exact hb
  split
  · simpa using hb
  · rw [State.board_enterSeeking, State.freeFailed_leg]
    exact State.freeTarget_lawful hb ht hp.symm rfl hr

/-- The front that a test finds usable stands in the leg's queue as a RESERVED record. -/
theorem State.frontTest_usable (e : s.frontTest l = .usable h) :
    h ∈ s.queue l ∧ ∃ r, s.slot h.index = some r ∧ r.state = .reserved l := by
  unfold State.frontTest at e
  split at e
  · cases e
  rename_i q hq
  split at e
  · cases e
  rename_i r hr
  repeat' split at e
  all_goals cases e
  exact ⟨by simp [hq], r, hr, by simp_all⟩

theorem State.takeFront_leg (m : Leg) : (s.takeFront l h).leg m = s.leg m :=
  congrArg (PerLeg.get · m) (State.modRecord_legs (s := s.dropFromQueue l h.index) _)

/-- A leg without a target takes its usable front as one. -/
theorem State.takeFront_lawful (hb : s.board.Lawful) (e : s.frontTest l = .usable h)
    (ht : Safety.aims (s.leg l).phase = false) (hs : Safety.stands p = Safety.stands (s.leg l).phase)
    (ha : Safety.aims p = true) : ((s.takeFront l h).board.setLeg l p (s.leg l).stance (some h)).Lawful := by
  obtain ⟨hh, r, hr, hrs⟩ := State.frontTest_usable e
  rw [State.board_takeFront hr hrs]
  exact hb.aim hh ht hs ha

theorem State.enterSwing_lawful (hb : s.board.Lawful) (e : s.frontTest l = .usable h)
    (hp : (s.leg l).phase = .seeking) : (s.enterSwing l h).board.Lawful := by
  unfold State.enterSwing
  refine State.composePlace_lawful ?_ (by simp [Safety.stands])
  rw [State.board_setLeg, State.takeFront_leg]
  exact State.takeFront_lawful hb e (by rw [hp]; rfl) (by rw [hp]; rfl) rfl

theorem State.failFront_lawful (hb : s.board.Lawful) (e : s.frontTest l = .failed h) :
    (s.failFront l h).board.Lawful := by
  obtain ⟨r, hr, hs, _⟩ := State.frontTest_failed e
  unfold State.failFront
  dsimp only
  split
  all_goals exact State.failReserved_lawful hb hr hs

/-- The board after a hand-back in which the queue has a place left. -/
theorem State.board_handBackTarget (hr : s.slot h.index = some r) (hs : r.state = .target l)
    (hq : (s.queue l).length < 3) :
    (s.handBackTarget l h).board = (s.board.setMark h.index (some (.queued, l))).setQueue l (h :: s.queue l) := by
  have hn : (h :: (s.modRecord h.index (FootRecord.handBack s.seq.stride l)).queue l)[3]? = none := by
    simp only [State.queue, State.modRecord_queues]
    simpa [State.queue] using Nat.le_of_lt_succ hq
  unfold State.handBackTarget
  dsimp only
  rw [hn]
  simp [State.board_modRecord _ hr, FootRecord.handBack, hs, FootRecord.moveTo, RecordState.hold, State.queue]

/-- The board after a hand-back that pushes the queue's last entry out. -/
theorem State.board_handBackTarget_full {x y z : Handle} {r' : FootRecord} (hr : s.slot h.index = some r)
    (hs : r.state = .target l) (hq : s.queue l = [x, y, z]) (hr' : s.slot z.index = some r')
    (hs' : r'.state = .reserved l) :
    (s.handBackTarget l h).board =
      ((s.board.setMark h.index (some (.queued, l))).setQueue l [h, x, y]).setMark z.index none := by
  have hne : h.index ≠ z.index := by
    intro e
    rw [e, hr'] at hr
    cases hr
    rw [hs] at hs'
    cases hs'
  have hq' : (s.modRecord h.index (FootRecord.handBack s.seq.stride l)).queue l = [x, y, z] := by
    simpa [State.queue] using hq
  have hz : (s.modRecord h.index (FootRecord.handBack s.seq.stride l)).slot z.index = some r' := by
    simp [State.modRecord, hr, hne, hr']
  unfold State.handBackTarget
  simp only [hq', List.getElem?_cons_succ, List.getElem?_cons_zero]
  rw [State.board_modRecord (s := (s.modRecord h.index _).setQueue l _) _ hz, State.board_setQueue,
    State.board_modRecord _ hr]
  simp [FootRecord.handBack, FootRecord.unreserve, hs, hs', FootRecord.moveTo, RecordState.hold]

theorem State.handBackTarget_leg (m : Leg) : (s.handBackTarget l h).leg m = s.leg m := by
  unfold State.handBackTarget
  dsimp only
  split <;> simp [State.leg]

/-- A lift withdrawal hands the target back, and the leg stands again. -/
theorem State.withdrawLift_lawful (hb : s.board.Lawful) : (s.withdrawLift l).board.Lawful := by
  unfold State.withdrawLift
  split
  case isFalse => exact hb
  rename_i hp
  have hst : Safety.stands (s.leg l).phase = true := by rw [hp]; rfl
  split
  · rename_i h ht
    obtain ⟨r, hr, hs⟩ := State.slot_of_target hb ht
    rw [State.board_backToStance, State.handBackTarget_leg]
    by_cases hq : (s.queue l).length < 3
    · rw [State.board_handBackTarget hr hs hq]
      exact hb.handBack ht hst hq
    · obtain ⟨x, y, z, hq⟩ : ∃ x y z, s.queue l = [x, y, z] :=
        List.length_eq_three.1 (Nat.le_antisymm (hb.short l) (Nat.not_lt.1 hq))
      obtain ⟨r', hr', hs'⟩ := State.slot_of_queued hb (h := z) (l := l) (by simp [hq])
      rw [State.board_handBackTarget_full hr hs hq hr' hs']
      exact hb.handBackFull ht hst hq
  · rename_i ht
    have : (s.board.target l).isSome = Safety.aims (s.leg l).phase := hb.aiming l
    rw [hp] at this
    simp [State.board, ht, Safety.aims] at this

/-! ### Cascades -/

/-- The law of the holders is kept, and no leg changes but one in UNLOADING or SEEKING: the others keep their place, and
their queues lose entries at most. -/
structure Tame (s t : State) : Prop where
  lawful : s.board.Lawful → t.board.Lawful
  legs : ∀ l, (s.leg l).phase ≠ .unloading → (s.leg l).phase ≠ .seeking → t.leg l = s.leg l ∧
    (t.queue l).Sublist (s.queue l)

namespace Tame

theorem refl (s : State) : Tame s s := ⟨id, fun _ _ _ => ⟨rfl, .refl _⟩⟩

theorem trans (h : Tame s t) (h' : Tame t u) : Tame s u where
  lawful := h'.lawful ∘ h.lawful
  legs l hu hs := by
    obtain ⟨hl, hq⟩ := h.legs l hu hs
    obtain ⟨hl', hq'⟩ := h'.legs l (hl ▸ hu) (hl ▸ hs)
    exact ⟨hl'.trans hl, hq'.trans hq⟩

/-- The board and the legs stand as they were. -/
theorem of_eq (hb : t.board = s.board) (hl : t.legs = s.legs) : Tame s t where
  lawful := hb ▸ id
  legs l _ _ := by
    have hq : t.queue l = s.queue l := congrArg (Board.queue · l) hb
    exact ⟨congrArg (PerLeg.get · l) hl, hq ▸ .refl _⟩

/-- One leg in UNLOADING or SEEKING changes at most. -/
theorem of_leg (hk : KeepsOthers l s t) (hp : (s.leg l).phase = .unloading ∨ (s.leg l).phase = .seeking)
    (hb : s.board.Lawful → t.board.Lawful) : Tame s t where
  lawful := hb
  legs m hu hs := by
    have hm : m ≠ l := by
      rintro rfl
      exact hp.elim hu hs
    exact ⟨(hk m hm).1, (hk m hm).2 ▸ .refl _⟩

theorem ite {c : Prop} [Decidable c] {a b : State} (ha : c → Tame s a) (hb : ¬c → Tame s b) :
    Tame s (if c then a else b) := by
  split
  · exact ha ‹_›
  · exact hb ‹_›

theorem foldl {α : Type} {f : State → α → State} (hf : ∀ s a, Tame s (f s a)) (as : List α) (s : State) :
    Tame s (as.foldl f s) := by
  induction as generalizing s with
  | nil => exact .refl _
  | cons a as ih => exact (hf s a).trans (ih _)

/-- A leg that is neither UNLOADING nor SEEKING keeps its phase. -/
theorem phase (h : Tame s t) (hu : (s.leg l).phase ≠ .unloading) (hs : (s.leg l).phase ≠ .seeking) :
    (t.leg l).phase = (s.leg l).phase := congrArg _ (h.legs l hu hs).1

end Tame

theorem State.pend_tame (n : NodeNumber) (d : Detail) : Tame s (s.pend n d) := .of_eq rfl rfl

theorem State.setSeq_tame (q : Sequencer) : Tame s (s.setSeq q) := .of_eq rfl rfl

theorem State.setTrips_tame (v : TripUnit) : Tame s (s.setTrips v) := .of_eq rfl rfl

theorem State.setBal_tame (v : Balance) : Tame s (s.setBal v) := .of_eq rfl rfl

theorem State.setTold_tame (b : Bool) : Tame s { s with attn := { s.attn with tipHolds := b } } := .of_eq rfl rfl

theorem State.sendOrder_tame (l : Leg) (k : OrderKind) (x y z : Word) : Tame s (s.sendOrder l k x y z) :=
  .of_eq (State.board_sendOrder ..) (State.sendOrder_legs ..)

theorem State.sendPlain_tame (l : Leg) (k : OrderKind) : Tame s (s.sendPlain l k) := State.sendOrder_tame ..

/-- A check failure on a RESERVED record takes it out of its queue. -/
theorem State.failReserved_tame (hr : s.slot i = some r) (hs : r.state = .reserved l) : Tame s (s.failReserved l i) where
  lawful hb := State.failReserved_lawful hb hr hs
  legs m _ _ := by
    refine ⟨State.freeFailed_leg (s := s.dropFromQueue l i) m, ?_⟩
    have : (s.failReserved l i).queue m = (s.dropFromQueue l i).queue m :=
      congrArg (PerLeg.get · m) (State.freeRecord_queues (s := (s.dropFromQueue l i).setCheckFlag) _)
    rw [this, State.dropFromQueue, State.queue_setQueue]
    split
    · rename_i e
      exact e ▸ List.filter_sublist
    · exact .refl _

theorem State.takeForSeeking_tame (hp : (s.leg l).phase = .seeking) : Tame s (s.takeForSeeking l) := by
  unfold State.takeForSeeking
  split
  · exact .refl _
  · exact .refl _
  · rename_i h e
    refine .of_leg (l := l) ?_ (.inr hp) fun hb => State.failFront_lawful hb e
    unfold State.failFront
    dsimp only
    split
    · exact State.failReserved_others
    · exact State.failReserved_others.trans (.of_eq rfl rfl)
  · rename_i h e
    exact .of_leg State.enterSwing_others (.inr hp) fun hb => State.enterSwing_lawful hb e hp

theorem State.seek_tame (l : Leg) : Tame s (s.seek l) :=
  .ite (fun h => State.takeForSeeking_tame h.1) fun _ => .refl _

theorem State.withdrawLift_tame (l : Leg) : Tame s (s.withdrawLift l) := by
  by_cases hp : (s.leg l).phase = .unloading
  · refine .of_leg (l := l) ?_ (.inl hp) State.withdrawLift_lawful
    unfold State.withdrawLift
    rw [if_pos hp]
    split
    · exact State.handBackTarget_others.trans State.backToStance_others
    · exact State.backToStance_others
  · unfold State.withdrawLift
    rw [if_neg hp]
    exact .refl _

/-! ### Halt -/

theorem State.settleGait_tame : Tame s s.settleGait := by
  unfold State.settleGait
  split
  · exact .ite (fun _ => .refl _) fun _ => (State.setSeq_tame _).trans (State.pend_tame _ _)
  · exact .ite (fun _ => State.setSeq_tame _) fun _ => .refl _
  all_goals exact .refl _

theorem State.addReason_tame (x : HoldReason) : Tame s (s.addReason x) :=
  (State.setSeq_tame _).trans State.settleGait_tame

theorem State.braceStance_tame (l : Leg) : Tame s (s.braceStance l) :=
  .ite (fun _ => State.sendPlain_tame _ _) fun _ => .refl _

theorem State.haltEntry_tame (c : HaltCause) : Tame s (s.haltEntry c) := by
  unfold State.haltEntry
  refine .ite (fun _ => .refl _) fun _ => ?_
  dsimp only
  generalize hn : (s.leaveTo .halted).setSeq { (s.leaveTo .halted).seq with haltReason := some c } = named
  have entered : Tame s named := hn ▸ .of_eq rfl rfl
  have withdrawn := entered.trans (Tame.foldl (fun _ l => State.withdrawLift_tame l) Leg.all named)
  generalize Leg.all.foldl State.withdrawLift named = a at withdrawn ⊢
  have braced := withdrawn.trans (Tame.foldl (fun _ l => State.braceStance_tame l) Leg.all a)
  generalize Leg.all.foldl State.braceStance a = b at braced ⊢
  have noted : Tame s (({ b with attn := { b.attn with tipHolds := false } } : State).pend nodeGait (.gaitHalted c)) :=
    (braced.trans (State.setTold_tame false)).trans (State.pend_tame _ _)
  exact .ite (fun _ => noted.trans (Tame.foldl (fun _ l => State.seek_tame l) Leg.all _)) fun _ => noted

/-! ### Trips -/

theorem State.setTrip_tame (n : Fin 4) (v : Trip) : Tame s (s.setTrip n v) := .of_eq rfl rfl

theorem State.fireTrip_tame (e : Bool) (n : Fin 4) : Tame s (s.fireTrip e n) := by
  unfold State.fireTrip
  dsimp only
  have fired : Tame s ((s.setTrip n { s.trip n with state := .fired, timer := .stopped }).pend nodeTrip (.trip n)) :=
    .of_eq rfl rfl
  split
  · exact fired
  · exact fired.trans (.ite (fun _ => State.setSeq_tame _) fun _ => State.addReason_tame _)
  · exact fired.trans (State.haltEntry_tame _)

theorem State.testTrip_tame (e : Bool) (a b : BitVec 8) (n : Fin 4) : Tame s (s.testTrip e a b n) :=
  .ite (fun _ => (State.setTrip_tame n _).trans (State.fireTrip_tame e n)) fun _ => State.setTrip_tame n _

theorem State.testTrips_tame (e : Bool) (a b : BitVec 8) : Tame s (s.testTrips e a b) :=
  .foldl (fun _ n => State.testTrip_tame e a b n) _ _

theorem State.deliverOnly_tame (e : Bool) (src : Source) (l : Leg) (v : Int) : Tame s (s.deliverOnly e src l v) :=
  (State.setTrips_tame _).trans (State.testTrips_tame e _ _)

theorem State.recountOverflow_tame (b : State) (h : Tame s t) : Tame s (b.recountOverflow t) :=
  .ite (fun _ => h.trans (State.deliverOnly_tame ..)) fun _ => h

theorem State.deliver_tame (e : Bool) (src : Source) (l : Leg) (v : Int) : Tame s (s.deliver e src l v) :=
  State.recountOverflow_tame s (State.deliverOnly_tame e src l v)

theorem State.recount_tame : Tame s s.recount := State.deliver_tame ..

theorem State.recountIf_tame (b : Bool) : Tame s (s.recountIf b) := .ite (fun _ => State.recount_tame) fun _ => .refl _

theorem State.haltCause_tame (c : HaltCause) : Tame s (s.haltCause c) :=
  State.recountOverflow_tame s (State.haltEntry_tame c)

/-! ### The balance monitor -/

theorem FootRecord.markFailed_hold : r.markFailed.state.hold = r.state.hold := by
  unfold FootRecord.markFailed
  split
  · rename_i e
    simp [e, RecordState.hold]
  · rfl

/-- A change that leaves the holder of every record as it is leaves the board as it is. -/
theorem State.board_modRecord_of_hold {f : FootRecord → FootRecord} (hf : ∀ r, s.slot i = some r →
    (f r).state.hold = r.state.hold) : (s.modRecord i f).board = s.board := by
  unfold State.modRecord
  split
  · rename_i r hr
    rw [State.board_setSlot, Option.bind_some, hf r hr, ← State.board_mark hr, Board.setMark_self]
  · rfl

theorem State.flagFailed_tame (i : RecordIndex) : Tame s (s.flagFailed i) := by
  refine .of_eq ?_ (State.modRecord_legs (s := s.setCheckFlag) _)
  exact State.board_modRecord_of_hold (s := s.setCheckFlag) fun _ _ => FootRecord.markFailed_hold

theorem verifyMember_tame (skip : Option Leg) (acc : State × Bool) (l : Leg) :
    Tame acc.1 (verifyMember skip acc l).1 := by
  unfold verifyMember
  split
  · exact .refl _
  split
  · exact .refl _
  split
  · exact .refl _
  · exact (State.flagFailed_tame _).trans (State.haltCause_tame _)

theorem State.verifySupport_tame (skip : Option Leg) : Tame s (s.verifySupport skip).1 := by
  have each (ls : List Leg) : ∀ acc : State × Bool, Tame acc.1 (ls.foldl (verifyMember skip) acc).1 := by
    induction ls with
    | nil => exact fun _ => .refl _
    | cons l ls ih => exact fun acc => (verifyMember_tame skip acc l).trans (ih _)
  exact each Leg.all (s, false)

theorem State.testTip_tame : Tame s s.testTip :=
  .ite (fun _ => ((State.setTold_tame true).trans (State.pend_tame _ _)).trans (State.haltCause_tame _)) fun _ => .refl _

theorem State.computeCurrent_tame : Tame s s.computeCurrent :=
  .ite (fun _ => .refl _) fun _ =>
    (((State.verifySupport_tame none).trans (State.setBal_tame _)).trans State.testTip_tame).trans (State.deliver_tame ..)

theorem State.computeLift_tame (l : Leg) : Tame s (s.computeLift l) := by
  unfold State.computeLift
  have recorded : Tame s ((s.verifySupport (some l)).1.recordLift l) :=
    (State.verifySupport_tame (some l)).trans (State.setBal_tame _)
  have served := recorded.trans (State.deliver_tame true .liftMargin .lf
    ((s.verifySupport (some l)).1.recordLift l).bal.lift.value.toInt)
  exact .ite (fun _ => served.trans State.computeCurrent_tame) fun _ => served

theorem State.failLoaded_tame (i : RecordIndex) : Tame s (s.failLoaded i) :=
  ((State.flagFailed_tame i).trans (State.haltCause_tame .check)).trans State.computeCurrent_tame

/-! ### The gait sequencer -/

theorem State.afterFront_tame (l : Leg) : Tame s (s.afterFront l) := by
  unfold State.afterFront
  split
  · rename_i e
    obtain ⟨r, hr, hs, _⟩ := State.frontTest_failed e
    exact State.failReserved_tame hr hs
  all_goals exact .refl _

theorem State.closeEvaluation_tame (l : Leg) (a b : Bool) : Tame s (s.closeEvaluation l a b) := by
  have settled : Tame s (s.putThree s.liftUnsafe (!a) b).settleGait :=
    (State.setSeq_tame _).trans State.settleGait_tame
  exact .ite (fun _ => settled.trans (State.setSeq_tame _)) fun _ => settled

theorem State.evaluateFrom_tame (l : Leg) : Tame s (s.evaluateFrom l) := by
  have computed : Tame s ((s.afterFront l).computeLift l) := (State.afterFront_tame l).trans (State.computeLift_tame l)
  exact .ite (fun _ => computed.trans (State.closeEvaluation_tame ..)) fun _ => computed

theorem State.evaluateOnce_tame : Tame s s.evaluateOnce :=
  .ite
    (fun _ => .ite (fun _ => (State.setSeq_tame _).trans State.settleGait_tame) fun _ => State.evaluateFrom_tame _)
    fun _ => .refl _

theorem evaluations_tame (n : Nat) (s : State) : Tame s (evaluations n s) := by
  induction n generalizing s with
  | zero => exact .refl _
  | succ n ih => exact .ite (fun _ => State.evaluateOnce_tame.trans (ih _)) fun _ => State.evaluateOnce_tame

theorem State.evaluate_tame : Tame s s.evaluate := evaluations_tame _ _

theorem State.evaluateIfWalking_tame : Tame s s.evaluateIfWalking := .ite (fun _ => State.evaluate_tame) fun _ => .refl _

theorem State.removeReason_tame (x : HoldReason) : Tame s (s.removeReason x) := by
  have removed : Tame s (s.putReason x false).settleGait := (State.setSeq_tame _).trans State.settleGait_tame
  exact .ite (fun _ => .ite (fun _ => removed.trans State.evaluate_tame) fun _ => removed) fun _ => .refl _

theorem State.slipRearmTold_tame : Tame s s.slipRearmTold :=
  .ite (fun _ => .refl _) fun _ => State.removeReason_tame _

theorem State.reportToSequencer_tame (l : Leg) : Tame s (s.reportToSequencer l) :=
  .ite (fun _ => State.evaluate_tame) fun _ => .refl _

theorem State.seekAndReport_tame (l : Leg) : Tame s (s.seekAndReport l) :=
  .ite (fun _ => State.seek_tame l) fun _ => (State.seek_tame l).trans (State.reportToSequencer_tame l)

theorem State.seekAfterEntry_tame (l : Leg) : Tame s (s.seekAfterEntry l) := State.seekAndReport_tame l

theorem State.reportToLeg_tame (l : Leg) (a b : Bool) : Tame s (s.reportToLeg l a b) :=
  .ite
    (fun _ => .ite (fun _ => .ite (fun _ => State.sendPlain_tame _ _) fun _ => .refl _)
      fun _ => .ite (fun _ => State.seekAndReport_tame _) fun _ => .refl _)
    fun _ => .refl _

theorem State.reportQueue_tame (l : Leg) (q : List Handle) (a : Bool) : Tame s (s.reportQueue l q a) :=
  (State.reportToSequencer_tame l).trans (State.reportToLeg_tame ..)

theorem State.hearNewFront_tame (l : Leg) : Tame s (s.hearNewFront l) :=
  have heard : Tame s (s.setNewFront l false) := .of_eq rfl rfl
  .ite (fun _ => heard) fun _ => heard.trans (State.reportToLeg_tame ..)

theorem State.endStopping_tame : Tame s s.endStopping :=
  .ite (fun _ => (State.setSeq_tame _).trans (State.pend_tame _ _)) fun _ => .refl _

theorem State.withdrawalTold_tame : Tame s s.withdrawalTold := State.endStopping_tame.trans State.evaluateIfWalking_tame

theorem State.advanceOrder_tame (l : Leg) : Tame s (s.advanceOrder l) :=
  .ite (fun _ => .of_eq rfl rfl) fun _ => .of_eq rfl rfl

theorem State.confirmationTold_tame (l : Leg) (b : Bool) : Tame s (s.confirmationTold l b) := by
  have advanced : Tame s (if b then s.advanceOrder l else s) := .ite (fun _ => State.advanceOrder_tame l) fun _ => .refl _
  exact (advanced.trans State.endStopping_tame).trans State.evaluateIfWalking_tame

theorem State.supportChanged_tame (b : Bool) : Tame s (s.supportChanged b) :=
  .ite (fun _ => State.computeCurrent_tame) fun _ => .refl _

theorem State.deliverSlipCount_tame (l : Leg) (v : Nat) : Tame s (s.deliverSlipCount l v) := State.deliver_tame ..

theorem State.seekAll_tame : Tame s s.seekAll := .foldl (fun _ l => State.seekAndReport_tame l) _ _

end Sys2Proof.Machine
end

section
/-! SUPPORT. The events of the leg phase machines, of the leg ports and of the legs' timers keep the law of the holders (R90 to
R109). -/

namespace Sys2Proof.Machine

variable {s t u : State} {i : RecordIndex} {h : Handle} {l : Leg} {r : FootRecord} {p : Phase}

/-- The law of the holders is kept. -/
structure KeepsHolders (s t : State) : Prop where
  lawful : s.board.Lawful → t.board.Lawful

namespace KeepsHolders

theorem refl (s : State) : KeepsHolders s s := ⟨id⟩

theorem trans (h : KeepsHolders s t) (h' : KeepsHolders t u) : KeepsHolders s u := ⟨h'.lawful ∘ h.lawful⟩

theorem of_board (h : t.board = s.board) : KeepsHolders s t := ⟨fun hb => by rwa [h]⟩

theorem ite {c : Prop} [Decidable c] {a b : State} (ha : c → KeepsHolders s a) (hb : ¬c → KeepsHolders s b) :
    KeepsHolders s (if c then a else b) := by
  split
  · exact ha ‹_›
  · exact hb ‹_›

/-- A leg changes, its phase, its stance record and its target apart. -/
theorem setLeg {v : LegState} (hp : v.phase = (s.leg l).phase) (hs : v.stance = (s.leg l).stance)
    (ht : v.target = (s.leg l).target) : KeepsHolders s (s.setLeg l v) := by
  refine .of_board ?_
  rw [State.board_setLeg, hp, hs, ht]
  unfold Board.setLeg State.board
  simp

/-- A leg moves between phases that hold alike. -/
theorem move {v : LegState} (hst : Safety.stands v.phase = Safety.stands (s.leg l).phase)
    (ha : Safety.aims v.phase = Safety.aims (s.leg l).phase) (hs : v.stance = (s.leg l).stance)
    (ht : v.target = (s.leg l).target) : KeepsHolders s (s.setLeg l v) where
  lawful hb := by
    rw [State.board_setLeg, hs, ht]
    exact hb.move hst ha

end KeepsHolders

/-- A cascade keeps the law of the holders. -/
theorem Tame.holders (h : Tame s t) : KeepsHolders s t := ⟨h.lawful⟩

/-! ### Coming onto the link, arrival, touchdown -/

theorem State.linkUpHanded_holders (l : Leg) : KeepsHolders s (s.linkUpHanded l) := by
  refine .ite (fun hp => ?_) fun _ => .refl _
  refine KeepsHolders.trans ?_ ((State.sendPlain_tame l .hold).trans (State.pend_tame _ _)).holders
  rcases hp.1 with hp | hp
  all_goals exact .move (by rw [hp]; rfl) (by rw [hp]; rfl) rfl rfl

theorem State.arrivalHanded_holders (l : Leg) : KeepsHolders s (s.arrivalHanded l) :=
  .ite (fun hp => .move (by rw [hp]; rfl) (by rw [hp]; rfl) rfl rfl) fun _ => .refl _

theorem State.touchdownHanded_holders (l : Leg) : KeepsHolders s (s.touchdownHanded l) := by
  unfold State.touchdownHanded
  split
  case h_1 hp => exact .move (by rw [hp]; rfl) (by rw [hp]; rfl) rfl rfl
  case h_2 => exact (State.pend_tame _ _).holders
  all_goals exact .refl _

/-! ### Liftoff -/

/-- A LOADED record is freed where its check has failed, and held by nobody otherwise: the board either way. -/
def Releases (i : RecordIndex) (s t : State) : Prop :=
  (∃ g, t.board = (s.board.setMark i none).setGen i g) ∧ t.legs = s.legs

theorem Releases.of_free (reason : RetireReason) (hr : s.slot i = some r) : Releases i s (s.freeRecord i reason) :=
  ⟨⟨_, State.board_freeRecord reason hr⟩, State.freeRecord_legs _⟩

theorem Releases.of_setSlot (hr : r.state.hold = none) : Releases i s (s.setSlot i (some r)) := by
  refine ⟨⟨s.gen i, ?_⟩, rfl⟩
  rw [State.board_setSlot, Option.bind_some, hr]
  exact (Board.setGen_self (s.board.setMark i none) i).symm

theorem FootRecord.suspectLoaded_hold {f : Bool} {stride : BitVec 12} (hs : r.state = .loaded l f) :
    (r.suspectLoaded stride).state.hold = none := by
  simp [FootRecord.suspectLoaded, hs, FootRecord.moveTo, RecordState.hold]

theorem State.vacate_releases {f : Bool} (hr : s.slot i = some r) (hs : r.state = .loaded l f) :
    Releases i s (s.vacate i) := by
  unfold State.vacate
  rw [hr]
  cases f <;> simp only [hs]
  · split
    · exact .of_setSlot rfl
    · exact .of_setSlot (FootRecord.suspectLoaded_hold hs)
  · exact .of_free _ hr

theorem State.unloadRecord_releases {f : Bool} (hr : s.slot i = some r) (hs : r.state = .loaded l f) :
    Releases i s (s.unloadRecord i) := by
  unfold State.unloadRecord
  rw [hr]
  cases f <;> simp only [hs]
  · exact .of_setSlot (FootRecord.suspectLoaded_hold (r := s.chargeSlip i r) hs)
  · exact .of_free _ hr

theorem State.loseStance_releases {f : Bool} (hr : s.slot i = some r) (hs : r.state = .loaded l f) :
    Releases i s (s.loseStance i) := by
  unfold State.loseStance
  rw [hr]
  cases f <;> simp only [hs]
  · exact .of_setSlot (FootRecord.suspectLoaded_hold hs)
  · exact .of_free _ hr

/-- A leg whose stance record is released goes to a phase without one. -/
theorem Releases.lawful (hk : Releases h.index s t) (hb : s.board.Lawful) (hh : (s.leg l).stance = some h)
    (hs : Safety.stands p = false) (ha : Safety.aims p = Safety.aims (s.leg l).phase) :
    (t.board.setLeg l p none (s.leg l).target).Lawful := by
  obtain ⟨⟨g, hg⟩, _⟩ := hk
  rw [hg]
  exact hb.unload hh hs ha g

theorem Releases.leg (hk : Releases i s t) (m : Leg) : t.leg m = s.leg m := congrArg (PerLeg.get · m) hk.2

/-- Under the law a leg that stands has a stance record. -/
theorem State.stance_of_stands (hb : s.board.Lawful) (hp : Safety.stands (s.leg l).phase = true) :
    ∃ h, (s.leg l).stance = some h := Option.isSome_iff_exists.1 ((hb.standing l).trans hp)

/-- Under the law a leg that aims has a target. -/
theorem State.target_of_aims (hb : s.board.Lawful) (hp : Safety.aims (s.leg l).phase = true) :
    ∃ h, (s.leg l).target = some h := Option.isSome_iff_exists.1 ((hb.aiming l).trans hp)

/-- Under the law a leg that does not aim has no target. -/
theorem State.target_eq_none (hb : s.board.Lawful) (hp : Safety.aims (s.leg l).phase = false) :
    (s.leg l).target = none := Option.isSome_eq_false_iff.1 ((hb.aiming l).trans hp) |> Option.isNone_iff_eq_none.1

theorem State.leaveStance_lawful (hb : s.board.Lawful) (hp : (s.leg l).phase = .unloading) :
    (s.leaveStance l).board.Lawful := by
  obtain ⟨h, hh⟩ := State.stance_of_stands hb (l := l) (by rw [hp]; rfl)
  obtain ⟨r, f, hr, hs⟩ := State.slot_of_stance hb hh
  have hv := State.vacate_releases hr hs
  unfold State.leaveStance
  simp only [hh]
  rw [State.board_setLeg, hv.leg]
  exact hv.lawful hb hh rfl (by rw [hp]; rfl)

theorem State.leaveStance_phase : ((s.leaveStance l).leg l).phase = .swing := by simp [State.leaveStance]

theorem State.liftoffUnloading_holders (hp : (s.leg l).phase = .unloading) : KeepsHolders s (s.liftoffUnloading l) := by
  refine ⟨fun hb => ?_⟩
  unfold State.liftoffUnloading
  dsimp only
  have watched := State.supportChanged_tame (s := s.leaveStance l) (s.supports l)
  have hw : (((s.leaveStance l).supportChanged (s.supports l)).leg l).phase = .swing := by
    rw [watched.phase (by simp [State.leaveStance_phase]) (by simp [State.leaveStance_phase]), State.leaveStance_phase]
  have placed : (((s.leaveStance l).supportChanged (s.supports l)).composePlace l).board.Lawful :=
    State.composePlace_lawful (watched.lawful (State.leaveStance_lawful hb hp)) (by rw [hw]; rfl)
  generalize ((s.leaveStance l).supportChanged (s.supports l)).composePlace l = a at placed ⊢
  have settled : Tame a (if (a.leg l).phase = .seeking then a.seekAfterEntry l else a) :=
    .ite (fun _ => State.seekAfterEntry_tame l) fun _ => .refl _
  exact ((settled.trans (State.deliverSlipCount_tame l 0)).trans (State.recountIf_tame _)).lawful placed

/-- A leg whose target is held by nobody any longer seeks. -/
theorem State.enterSeeking_lawful (hb : s.board.Lawful) (ht : (s.leg l).target = some h)
    (hp : Safety.stands (s.leg l).phase = false) (hk : Releases h.index s t) : (t.enterSeeking l).board.Lawful := by
  obtain ⟨⟨g, hg⟩, _⟩ := id hk
  rw [State.board_enterSeeking, hk.leg, hg]
  exact hb.miss (p := .seeking) ht hp.symm rfl g

theorem State.modRecord_releases {f : FootRecord → FootRecord} (hr : s.slot i = some r)
    (hf : (f r).state.hold = none) : Releases i s (s.modRecord i f) := by
  have he : s.modRecord i f = s.setSlot i (some (f r)) := by simp [State.modRecord, hr]
  exact he ▸ .of_setSlot hf

theorem State.liftoffTouchdown_holders (hp : (s.leg l).phase = .touchdown) : KeepsHolders s (s.liftoffTouchdown l) := by
  refine .ite (fun _ => .move (by rw [hp]; rfl) (by rw [hp]; rfl) rfl rfl) fun _ => ⟨fun hb => ?_⟩
  obtain ⟨h, ht⟩ := State.target_of_aims hb (l := l) (by rw [hp]; rfl)
  obtain ⟨r, hr, hs⟩ := State.slot_of_target hb ht
  simp only [ht]
  refine ((State.pend_tame _ _).trans (State.seekAfterEntry_tame l)).lawful ?_
  refine State.enterSeeking_lawful hb ht (by rw [hp]; rfl) (State.modRecord_releases hr ?_)
  simp [FootRecord.suspectTarget, hs, FootRecord.moveTo, RecordState.hold]

theorem State.liftoffStance_holders (hp : (s.leg l).phase = .stance) : KeepsHolders s (s.liftoffStance l) := by
  refine ⟨fun hb => ?_⟩
  obtain ⟨h, hh⟩ := State.stance_of_stands hb (l := l) (by rw [hp]; rfl)
  obtain ⟨r, f, hr, hs⟩ := State.slot_of_stance hb hh
  have hk := State.unloadRecord_releases hr hs
  have ht := State.target_eq_none hb (l := l) (by rw [hp]; rfl)
  unfold State.liftoffStance
  simp only [hh]
  refine ((State.haltCause_tame _).trans (State.supportChanged_tame _)).trans
    ((State.seekAfterEntry_tame l).trans (State.deliverSlipCount_tame l 0)) |>.lawful ?_
  unfold State.unloadLeg
  dsimp only
  rw [State.board_pend, State.board_enterSeeking, State.leg_setLeg_self, State.board_setLeg, hk.leg]
  have seeks := hk.lawful (p := .seeking) hb hh rfl (by rw [hp]; rfl)
  rw [ht] at seeks
  unfold Board.setLeg at seeks ⊢
  simpa using seeks

theorem State.liftoffHanded_holders (l : Leg) : KeepsHolders s (s.liftoffHanded l) := by
  unfold State.liftoffHanded
  split
  case h_1 hp => exact State.liftoffUnloading_holders hp
  case h_2 hp => exact State.liftoffTouchdown_holders hp
  case h_3 hp => exact State.liftoffStance_holders hp
  all_goals exact .refl _

/-! ### Slip -/

theorem State.board_chargeStance : (s.chargeStance l i).board = s.board := by
  refine State.board_modRecord_of_hold fun r _ => ?_
  split
  · split <;> rfl
  all_goals rfl

theorem State.slipInStance_holders (l : Leg) : KeepsHolders s (s.slipInStance l) := by
  unfold State.slipInStance
  split
  · exact .refl _
  rename_i h _
  dsimp only
  generalize s.slipsAt h.index = count
  have noted : KeepsHolders s (((s.chargeStance l h.index).sendPlain l .brace).pend nodeSlip (.slip l false h)) :=
    (KeepsHolders.of_board State.board_chargeStance).trans
      ((State.sendPlain_tame l .brace).trans (State.pend_tame _ _)).holders
  generalize ((s.chargeStance l h.index).sendPlain l .brace).pend nodeSlip (.slip l false h) = a at noted ⊢
  have latched : KeepsHolders a (a.setLeg l { a.leg l with slipLatched := true }) := .setLeg rfl rfl rfl
  have held : KeepsHolders s ((a.setLeg l { a.leg l with slipLatched := true }).addReason .slip) :=
    noted.trans (latched.trans (State.addReason_tame .slip).holders)
  exact (KeepsHolders.ite (fun _ => held.trans (State.haltCause_tame _).holders) fun _ => held).trans
    (State.deliverSlipCount_tame l _).holders

theorem State.slipInTouchdown_holders (hp : (s.leg l).phase = .touchdown) : KeepsHolders s (s.slipInTouchdown l) := by
  refine ⟨fun hb => ?_⟩
  obtain ⟨h, ht⟩ := State.target_of_aims hb (l := l) (by rw [hp]; rfl)
  obtain ⟨r, hr, hs⟩ := State.slot_of_target hb ht
  unfold State.slipInTouchdown
  simp only [ht]
  refine ((State.pend_tame _ _).trans (State.seekAfterEntry_tame l)).lawful ?_
  refine State.enterSeeking_lawful hb ht (by rw [hp]; rfl) (State.modRecord_releases hr ?_)
  simp [FootRecord.suspectTarget, State.chargeSlip, hs, FootRecord.moveTo, RecordState.hold]

theorem State.slipHanded_holders (l : Leg) : KeepsHolders s (s.slipHanded l) := by
  unfold State.slipHanded
  split
  case h_1 => exact State.slipInStance_holders l
  case h_2 hp => exact State.slipInTouchdown_holders hp
  all_goals exact .refl _

theorem State.slipRearmHanded_holders (l : Leg) : KeepsHolders s (s.slipRearmHanded l) :=
  have cleared : KeepsHolders s (s.setLeg l { s.leg l with slipLatched := false }) := .setLeg rfl rfl rfl
  cleared.trans State.slipRearmTold_tame.holders

/-! ### Miss by descent timeout, confirmation, check failure of a target -/

theorem State.missVoid_holders (hp : (s.leg l).phase = .descent) : KeepsHolders s (s.missVoid l) := by
  refine ⟨fun hb => ?_⟩
  obtain ⟨h, ht⟩ := State.target_of_aims hb (l := l) (by rw [hp]; rfl)
  obtain ⟨r, hr, hs⟩ := State.slot_of_target hb ht
  unfold State.missVoid
  simp only [ht]
  refine ((State.pend_tame _ _).trans (State.seekAfterEntry_tame l)).lawful ?_
  refine State.enterSeeking_lawful hb ht (by rw [hp]; rfl) ?_
  have he : s.freeTarget l h.index = s.freeRecord h.index .void := by simp [State.freeTarget, hr, hs]
  exact he ▸ .of_free _ hr

theorem State.confirmStance_holders (hp : (s.leg l).phase = .touchdown) : KeepsHolders s (s.confirmStance l) := by
  refine ⟨fun hb => ?_⟩
  obtain ⟨h, ht⟩ := State.target_of_aims hb (l := l) (by rw [hp]; rfl)
  obtain ⟨r, hr, hs⟩ := State.slot_of_target hb ht
  unfold State.confirmStance
  simp only [ht]
  refine (((State.sendPlain_tame l .hold).trans (State.supportChanged_tame true)).trans
    ((State.confirmationTold_tame l _).trans (State.deliverSlipCount_tame l _))).lawful ?_
  rw [State.board_setLeg, State.board_modRecord _ hr]
  simp only [FootRecord.confirm, hs, if_true, FootRecord.moveTo, RecordState.hold]
  exact hb.confirm ht (by rw [show s.board.phase l = .touchdown from hp]; rfl)

theorem State.freeFailed_releases (hr : s.slot i = some r) : Releases i s (s.freeFailed i) :=
  ⟨⟨_, State.board_freeFailed hr⟩, State.freeRecord_legs (s := s.setCheckFlag) _⟩

/-- A check failure of a leg's target, in every phase that has one. -/
theorem State.failTarget_holders (hr : s.slot i = some r) (hs : r.state = .target l) :
    KeepsHolders s (s.failTarget l i) := by
  refine ⟨fun hb => ?_⟩
  have ht : (s.leg l).target = some (s.handleOf i) := (holderLaw_iff.2 hb).target i r l hr hs
  have ha : Safety.aims (s.leg l).phase = true := by
    rw [← (holderLaw_iff.2 hb).aiming l, ht]
    rfl
  have seeks (hp : Safety.stands (s.leg l).phase = false) :
      (((s.freeFailed i).enterSeeking l).seekAfterEntry l).board.Lawful :=
    (State.seekAfterEntry_tame l).lawful (State.enterSeeking_lawful hb ht hp (State.freeFailed_releases hr))
  unfold State.failTarget
  dsimp only
  split
  case h_1 hp =>
    refine State.withdrawalTold_tame.lawful ?_
    rw [State.board_backToStance, State.freeFailed_leg]
    exact State.freeTarget_lawful hb ht (by rw [hp]; rfl) rfl hr
  case h_2 hp | h_3 hp | h_4 hp => exact seeks (by rw [hp]; rfl)
  all_goals
    rename_i hp
    rw [hp] at ha
    cases ha

/-- A record that nobody holds is freed. -/
theorem State.freeFailed_holders (hr : s.slot i = some r) (hu : r.Unheld) : KeepsHolders s (s.freeFailed i) := by
  refine ⟨fun hb => ?_⟩
  rw [State.board_freeFailed hr]
  exact hb.free (by rw [State.board_mark hr, FootRecord.hold_eq_none.2 hu]) _

theorem State.freeRecord_holders (reason : RetireReason) (hr : s.slot i = some r) (hu : r.Unheld) :
    KeepsHolders s (s.freeRecord i reason) := by
  refine ⟨fun hb => ?_⟩
  rw [State.board_freeRecord reason hr]
  exact hb.free (by rw [State.board_mark hr, FootRecord.hold_eq_none.2 hu]) _

/-- A check failure of any record, with its whole outcome. -/
theorem State.failRecord_holders (hr : s.slot i = some r) : KeepsHolders s (s.failRecord i r) := by
  unfold State.failRecord
  split
  case h_1 hs => exact (State.freeFailed_holders hr (.inl hs)).trans State.recount_tame.holders
  case h_2 hs => exact State.freeFailed_holders hr (.inr hs)
  case h_3 hs => exact ((State.failReserved_tame hr hs).trans (State.reportQueue_tame ..)).holders
  case h_4 hs => exact State.failTarget_holders hr hs
  case h_5 => exact (State.failLoaded_tame i).holders
  case h_6 => exact .refl _

/-! ### Loss -/

/-- A change by which a leg lets a record go: what the records say of their holders after it. -/
theorem State.mark_letGo {m : Hold × Leg} {f : FootRecord → FootRecord} (j : RecordIndex)
    (hf : ∀ r, (f r).state.hold = if r.state.hold = some m then none else r.state.hold) :
    (s.modRecord i f).board.mark j = if i = j ∧ s.board.mark j = some m then none else s.board.mark j := by
  cases hr : s.slot i with
  | none =>
    have hm := State.board_mark_free hr
    have he : s.modRecord i f = s := by simp [State.modRecord, hr]
    rw [he]
    grind
  | some r =>
    have hm := State.board_mark hr
    rw [State.board_modRecord _ hr, hf]
    unfold Board.setMark
    grind [Function.update_apply]

theorem FootRecord.unreserve_hold (stride : BitVec 12) (r : FootRecord) : (r.unreserve stride l).state.hold =
    if r.state.hold = some (.queued, l) then none else r.state.hold := by
  simp only [RecordState.hold_eq_queued, FootRecord.unreserve]
  split <;> rfl

theorem FootRecord.releaseTarget_hold (stride : BitVec 12) (r : FootRecord) : (r.releaseTarget stride l).state.hold =
    if r.state.hold = some (.aimed, l) then none else r.state.hold := by
  simp only [RecordState.hold_eq_aimed, FootRecord.releaseTarget]
  split <;> rfl

theorem State.modRecord_gens (f : FootRecord → FootRecord) : (s.modRecord i f).store.gens = s.store.gens := by
  unfold State.modRecord
  split <;> rfl

/-- What the records say after a list of entries has returned to CANDIDATE. -/
theorem State.mark_unreserveAll (q : List Handle) (j : RecordIndex) :
    (q.foldl (fun s h => s.modRecord h.index (FootRecord.unreserve s.seq.stride l)) s).board.mark j =
      if j ∈ q.map Handle.index ∧ s.board.mark j = some (.queued, l) then none else s.board.mark j := by
  induction q generalizing s with
  | nil => simp
  | cons h q ih =>
    rw [List.foldl_cons, ih, State.mark_letGo j (FootRecord.unreserve_hold _)]
    grind

/-- Returning entries to CANDIDATE changes no leg, no queue and no generation. -/
theorem State.unreserveAll_rest (q : List Handle) :
    let t := q.foldl (fun s h => s.modRecord h.index (FootRecord.unreserve s.seq.stride l)) s
    t.legs = s.legs ∧ t.queues = s.queues ∧ t.store.gens = s.store.gens := by
  induction q generalizing s with
  | nil => exact ⟨rfl, rfl, rfl⟩
  | cons h q ih =>
    obtain ⟨hl, hq, hg⟩ := ih (s := s.modRecord h.index (FootRecord.unreserve s.seq.stride l))
    exact ⟨hl.trans (State.modRecord_legs _), hq.trans (State.modRecord_queues _), hg.trans (State.modRecord_gens _)⟩

/-- Records are let go: those with a mark lose it, the legs and their queues stand, and so does every other generation. -/
structure LetsGo (m : Hold × Leg) (s t : State) : Prop where
  legs : t.legs = s.legs
  queue : t.queue = s.queue
  mark : ∀ j, t.board.mark j = if s.board.mark j = some m then none else s.board.mark j
  gen : ∀ j, s.board.mark j ≠ some m → t.gen j = s.gen j

/-- A lost leg's stance record let go. -/
def State.stanceLost (s : State) (l : Leg) : State :=
  match (s.leg l).stance with
  | some h => s.loseStance h.index
  | none => s

/-- A lost leg's target let go, after its stance record. -/
def State.targetLost (s stanced : State) (l : Leg) : State :=
  match (s.leg l).target with
  | some h => stanced.modRecord h.index (FootRecord.releaseTarget s.seq.stride l)
  | none => stanced

theorem State.loseRecords_eq : s.loseRecords l = (s.targetLost (s.stanceLost l) l).emptyQueue l := rfl

/-- Under the law the record that a leg stands on is the one marked so. -/
theorem State.stanceLost_letsGo (hb : s.board.Lawful) : LetsGo (.stood, l) s (s.stanceLost l) := by
  have hst := hb.stood l
  unfold State.stanceLost
  cases hh : (s.leg l).stance with
  | none =>
    have none_marked (j : RecordIndex) : s.board.mark j ≠ some (.stood, l) := fun hm => by
      have := (hst ⟨j, s.gen j⟩).2 ⟨rfl, hm⟩
      rw [show s.board.stance l = none from hh] at this
      cases this
    exact ⟨rfl, rfl, fun j => by rw [if_neg (none_marked j)], fun _ _ => rfl⟩
  | some h =>
    obtain ⟨r, f, hr, hs⟩ := State.slot_of_stance hb hh
    obtain ⟨⟨g, hg⟩, hl⟩ := State.loseStance_releases hr hs
    have only (j : RecordIndex) : s.board.mark j = some (.stood, l) ↔ j = h.index := by
      constructor
      · intro hm
        have := (hst ⟨j, s.gen j⟩).2 ⟨rfl, hm⟩
        rw [show s.board.stance l = some h from hh] at this
        cases this
        rfl
      · rintro rfl
        exact ((hst h).1 hh).2
    refine ⟨hl, ?_, fun j => ?_, fun j hj => ?_⟩
    · exact congrArg Board.queue hg
    · simp only [only, hg, Board.setGen, Board.setMark, Function.update_apply]
    · have : (s.loseStance h.index).board.gen j = s.board.gen j := by
        rw [hg]
        exact Function.update_of_ne (fun e => hj ((only j).2 e)) ..
      exact this

/-- Under the law a lost leg's target is the one marked so. -/
theorem State.targetLost_letsGo (hb : s.board.Lawful)
    (hm : ∀ j, t.board.mark j = some (.aimed, l) → s.board.mark j = some (.aimed, l)) :
    LetsGo (.aimed, l) t (s.targetLost t l) := by
  unfold State.targetLost
  have hat := hb.aimed l
  have only (j : RecordIndex) (hj : t.board.mark j = some (.aimed, l)) : (s.leg l).target = some ⟨j, s.gen j⟩ :=
    (hat ⟨j, s.gen j⟩).2 ⟨rfl, hm j hj⟩
  cases hh : (s.leg l).target with
  | none =>
    refine ⟨rfl, rfl, fun j => ?_, fun _ _ => rfl⟩
    rw [if_neg fun hj => by simp [only j hj] at hh]
  | some h =>
    refine ⟨State.modRecord_legs _, ?_, fun j => ?_, fun j _ => ?_⟩
    · exact congrArg (fun q => PerLeg.get q) (State.modRecord_queues _)
    · rw [State.mark_letGo j (FootRecord.releaseTarget_hold _)]
      by_cases hj : t.board.mark j = some (.aimed, l)
      · have := only j hj
        rw [hh] at this
        cases this
        simp
      · simp [hj]
    · exact congrArg (fun v : Vector (BitVec 4) 40 => v[j]) (State.modRecord_gens _)

/-- Under the law the entries of a lost leg's queue are those marked so. -/
theorem State.unreserveAll_letsGo (hb : s.board.Lawful) (hq : t.queue l = s.queue l)
    (hm : ∀ j, t.board.mark j = some (.queued, l) → s.board.mark j = some (.queued, l)) :
    LetsGo (.queued, l) t ((t.queue l).foldl (fun s h => s.modRecord h.index (FootRecord.unreserve s.seq.stride l)) t)
    := by
  obtain ⟨hl, hqs, hg⟩ := State.unreserveAll_rest (s := t) (l := l) (t.queue l)
  refine ⟨hl, congrArg (fun q => PerLeg.get q) hqs, fun j => ?_, fun j _ => ?_⟩
  · rw [State.mark_unreserveAll]
    by_cases hj : t.board.mark j = some (.queued, l)
    · have : (⟨j, s.gen j⟩ : Handle) ∈ s.queue l := (hb.queued l _).2 ⟨rfl, hm j hj⟩
      simp only [hj, and_true, hq, List.mem_map]
      rw [if_pos ⟨_, this, rfl⟩, if_pos trivial]
    · simp [hj]
  · exact congrArg (fun v : Vector (BitVec 4) 40 => v[j]) hg

/-- The board after a lost leg has let its records go. -/
theorem State.loseRecords_loses (hb : s.board.Lawful) : Board.Loses l s.board ((s.loseRecords l).enterLost l).board := by
  have stanced := State.stanceLost_letsGo (l := l) hb
  have released := State.targetLost_letsGo (l := l) (t := s.stanceLost l) hb fun j hj => by
    rw [stanced.mark] at hj
    grind
  rw [State.loseRecords_eq, State.emptyQueue]
  generalize s.stanceLost l = a at stanced released ⊢
  generalize s.targetLost a l = c at released ⊢
  have hq : c.queue l = s.queue l := by rw [released.queue, stanced.queue]
  have emptied := State.unreserveAll_letsGo (l := l) (t := c) hb hq fun j hj => by
    rw [released.mark, stanced.mark] at hj
    grind
  generalize (c.queue l).foldl (fun s h => s.modRecord h.index (FootRecord.unreserve s.seq.stride l)) c = d at emptied ⊢
  have legs (m : Leg) : d.leg m = s.leg m :=
    congrArg (PerLeg.get · m) (emptied.legs.trans (released.legs.trans stanced.legs))
  have queues (m : Leg) : d.queue m = s.queue m :=
    congrFun (emptied.queue.trans (released.queue.trans stanced.queue)) m
  have marks (j : RecordIndex) : d.board.mark j = if (s.board.mark j).map Prod.snd = some l then none else s.board.mark j := by
    rw [emptied.mark, released.mark, stanced.mark]
    cases hj : s.board.mark j with
    | none => simp
    | some m =>
      obtain ⟨k, m⟩ := m
      by_cases e : m = l <;> cases k <;> simp [e]
  have gens (j : RecordIndex) (hj : (s.board.mark j).map Prod.snd ≠ some l) : d.gen j = s.gen j := by
    have hk (k : Hold) : s.board.mark j ≠ some (k, l) := fun e => hj (by rw [e]; rfl)
    rw [emptied.gen j, released.gen j, stanced.gen j (hk _)]
    all_goals
      simp only [released.mark, stanced.mark, if_neg (hk _)]
      exact hk _
  have lost : ((d.setQueue l []).enterLost l).board = (d.board.setQueue l []).setLeg l .lost none none := by
    rw [State.enterLost, State.board_setLeg, State.board_setQueue]
  rw [lost]
  refine ⟨marks, gens, fun m => ?_, fun m => ?_, fun m => ?_, fun m => ?_⟩
  all_goals
    refine (Function.update_apply ..).trans ?_
    congr 1
  · exact queues m
  · exact congrArg LegState.phase (legs m)
  · exact congrArg LegState.stance (legs m)
  · exact congrArg LegState.target (legs m)

theorem State.legLost_holders (l : Leg) : KeepsHolders s (s.legLost l) := by
  refine .ite (fun _ => ⟨fun hb => ?_⟩) fun _ => .refl _
  dsimp only
  have lost : ((s.loseRecords l).enterLost l).board.Lawful := hb.lose (State.loseRecords_loses hb)
  have watched := State.supportChanged_tame (s := (s.loseRecords l).enterLost l) (s.supports l)
  generalize ((s.loseRecords l).enterLost l).supportChanged (s.supports l) = a at watched ⊢
  have reported := watched.trans (Tame.ite (c := (s.queue l).isEmpty = true) (a := a) (b := a.reportToSequencer l)
    (fun _ => .refl _) fun _ => State.reportToSequencer_tame l)
  exact ((((reported.trans State.slipRearmTold_tame).trans (State.pend_tame _ _)).trans (State.haltCause_tame _)).trans
    ((State.deliverSlipCount_tame l 0).trans (State.recountIf_tame _))).lawful lost

end Sys2Proof.Machine
end

section
/-! SUPPORT. The leg ports, the lift and every command keep the law of the holders, and so does every step (R5, R47, R89). -/

namespace Sys2Proof.Machine

open Claims

variable {s t u : State} {i : RecordIndex} {h : Handle} {l : Leg} {r : FootRecord} {p : Phase} {c : Client}
  {head : FrameHead} {code : BitVec 6} {count : BitVec 4} {data : List Word} {effect : Client → State → Effect}
  {lane : Lane}

/-! ### The leg ports -/

theorem KeepsHolders.setPort (l : Leg) (v : Port) : KeepsHolders s (s.setPort l v) := .of_board rfl

theorem State.rearmSlip_holders (l : Leg) : KeepsHolders s (s.rearmSlip l) :=
  .ite (fun _ => (KeepsHolders.setPort l _).trans (State.slipRearmHanded_holders l)) fun _ => .refl _

theorem State.declareDown_holders (l : Leg) (reason : LossReason) : KeepsHolders s (s.declareDown l reason) :=
  ((KeepsHolders.setPort l _).trans (State.rearmSlip_holders l)).trans (State.legLost_holders l)

theorem State.windowEnd_holders (l : Leg) : KeepsHolders s (s.windowEnd l) :=
  .ite (fun _ => .ite (fun _ => .setPort l _) fun _ => State.declareDown_holders l _) fun _ =>
    .ite
      (fun _ => .ite (fun _ => (KeepsHolders.setPort l _).trans (State.linkUpHanded_holders l)) fun _ => .setPort l _)
      fun _ => .setPort l _

theorem State.echoExpiry_holders (l : Leg) : KeepsHolders s (s.echoExpiry l) := by
  refine .ite (fun _ => ?_) fun _ => .refl _
  split
  · exact .refl _
  · exact .ite (fun _ => .of_board rfl) fun _ => State.declareDown_holders l _

theorem State.reportStore_holders (l : Leg) (r : Report) : KeepsHolders s (s.reportStore l r) :=
  (KeepsHolders.setPort l _).trans
    (((State.deliver_tame ..).trans (State.deliver_tame ..)).trans (State.deliver_tame ..)).holders

theorem State.reportFault_holders (l : Leg) (r : Report) : KeepsHolders s (s.reportFault l r) :=
  .ite (fun _ => .refl _) fun _ =>
    .ite (fun _ => (KeepsHolders.setPort l _).trans (State.legLost_holders l)) fun _ => .setPort l _

theorem State.reportEcho_holders (l : Leg) (echo : BitVec 4) : KeepsHolders s (s.reportEcho l echo) := by
  unfold State.reportEcho
  dsimp only
  split
  · exact .refl _
  · exact .ite (fun _ => .setPort l _) fun _ => .refl _

theorem State.reportArrival_holders (l : Leg) (r : Report) (echo : BitVec 4) :
    KeepsHolders s (s.reportArrival l r echo) := .ite (fun _ => State.arrivalHanded_holders l) fun _ => .refl _

theorem State.reportEdges_holders (l : Leg) (r : Report) : KeepsHolders s (s.reportEdges l r) := by
  unfold State.reportEdges
  dsimp only
  split
  · exact .setPort l _
  · exact .ite (fun _ => ((KeepsHolders.setPort l _).trans (State.rearmSlip_holders l)).trans
      (State.touchdownHanded_holders l)) fun _ => .refl _
  · exact .ite (fun _ => (KeepsHolders.setPort l _).trans (State.liftoffHanded_holders l)) fun _ => .refl _

theorem State.reportSlip_holders (l : Leg) (r : Report) : KeepsHolders s (s.reportSlip l r) :=
  .ite (fun _ => .ite (fun _ => .setPort l _) fun _ => (KeepsHolders.setPort l _).trans (State.slipHanded_holders l))
    fun _ => .ite (fun _ => .setPort l _) fun _ => .refl _

theorem State.onUpLink_holders (l : Leg) {f : State → State} (hf : KeepsHolders s (f s)) :
    KeepsHolders s (s.onUpLink l f) := .ite (fun _ => hf) fun _ => .refl _

theorem State.goodReport_holders (l : Leg) (r : Report) (echo : BitVec 4) : KeepsHolders s (s.goodReport l r echo) := by
  unfold State.goodReport
  dsimp only
  refine .trans ?_ (State.onUpLink_holders l (State.reportSlip_holders l r))
  refine .trans ?_ (State.onUpLink_holders l (State.reportEdges_holders l r))
  refine .trans ?_ (State.onUpLink_holders l (State.reportArrival_holders l r echo))
  refine .trans ?_ (State.onUpLink_holders l (State.reportEcho_holders l echo))
  exact (State.reportStore_holders l r).trans (State.reportFault_holders l r)

theorem State.takeReport_holders (l : Leg) (flags normal tangential check : Word) :
    KeepsHolders s (s.takeReport l flags normal tangential check) :=
  .ite (fun _ => State.goodReport_holders l _ _) fun _ => .of_board rfl

theorem State.rearmExpiry_holders (l : Leg) : KeepsHolders s (s.rearmExpiry l) :=
  .ite (fun _ => State.rearmSlip_holders l) fun _ => .refl _

/-! ### The lift -/

theorem State.startLift_holders (hp : (s.leg l).phase = .stance) (e : s.frontTest l = .usable h) :
    KeepsHolders s (s.startLift l h) := by
  refine ⟨fun hb => (State.sendPlain_tame l .lift).lawful ?_⟩
  rw [State.board_setLeg, State.takeFront_leg]
  exact State.takeFront_lawful hb e (by rw [hp]; rfl) (by rw [hp]; rfl) rfl

theorem State.liftTaken_holders (hp : (s.leg l).phase = .stance) (e : s.frontTest l = .usable h) :
    KeepsHolders s (s.liftTaken l h) := by
  have started : KeepsHolders s (s.startLift l h).clearLift :=
    (State.startLift_holders hp e).trans (State.setSeq_tame _).holders
  unfold State.liftTaken
  dsimp only
  split
  case h_1 | h_2 =>
    exact started.trans
      (((State.withdrawLift_tame l).trans State.endStopping_tame).trans (State.recountIf_tame _)).holders
  all_goals exact started.trans (State.reportToSequencer_tame l).holders

theorem State.liftRefused_tame : Tame s s.liftRefused :=
  have cleared : Tame s s.clearLift := State.setSeq_tame _
  .ite (fun _ => (cleared.trans (State.addReason_tame _)).trans State.evaluate_tame)
    fun _ => cleared.trans State.endStopping_tame

theorem State.takeLift_holders (l : Leg) : KeepsHolders s (s.takeLift l) := by
  refine .ite (fun _ => State.liftRefused_tame.holders) fun hp => ?_
  split
  · exact State.liftRefused_tame.holders
  · exact State.liftRefused_tame.holders
  · rename_i e
    obtain ⟨r, hr, hs, _⟩ := State.frontTest_failed e
    exact (((State.failReserved_tame hr hs).trans State.liftRefused_tame).trans (State.reportToSequencer_tame l)).holders
  · rename_i e
    exact State.liftTaken_holders (Decidable.not_not.1 hp) e

/-! ### The reservation unit and the leg commands -/

/-- A slot rewritten with a record of the same holder leaves the board as it is. -/
theorem KeepsHolders.setSlot (r' : FootRecord) (hr : s.slot i = some r) (hs : r'.state.hold = r.state.hold) :
    KeepsHolders s (s.setSlot i (some r')) := by
  refine .of_board ?_
  rw [State.board_setSlot, Option.bind_some, hs, ← State.board_mark hr, Board.setMark_self]

/-- A RESERVED record leaves its queue and is held by nobody. -/
theorem State.leave_lawful {r' : FootRecord} (hb : s.board.Lawful) (hr : s.slot i = some r)
    (hs : r.state = .reserved l) (hu : r'.state.hold = none) :
    ((s.dropFromQueue l i).setSlot i (some r')).board.Lawful := by
  rw [State.board_setSlot, State.board_dropFromQueue, Option.bind_some, hu,
    ← Board.setGen_self ((s.board.drop l i).setMark i none) i]
  exact hb.leave (by rw [State.board_mark hr, hs, RecordState.hold]) _

theorem State.reserveRecord_holders (hr : s.slot i = some r) (hs : r.state = .candidate) (hq : (s.queue l).length < 3) :
    KeepsHolders s (s.reserveRecord l i r) := by
  refine ⟨fun hb => ((State.reportQueue_tame ..).trans State.recount_tame).lawful ?_⟩
  rw [State.board_setQueue, State.board_setSlot, Option.bind_some]
  have : (r.reserveFor s.seq.stride l).state.hold = some (.queued, l) := by
    simp [FootRecord.reserveFor, hs, FootRecord.moveTo, RecordState.hold]
  rw [this]
  exact hb.join (h := s.handleOf i) ((State.board_mark hr).trans (by rw [hs]; rfl)) rfl hq

theorem State.cancelRecord_holders (hr : s.slot i = some r) (hs : r.state = .reserved l) :
    KeepsHolders s (s.cancelRecord l i) := by
  refine ⟨fun hb => ((State.reportQueue_tame ..).trans State.recount_tame).lawful ?_⟩
  have : (s.dropFromQueue l i).modRecord i (FootRecord.unreserve s.seq.stride l) =
      (s.dropFromQueue l i).setSlot i (some (r.unreserve s.seq.stride l)) := by
    simp [State.modRecord, show (s.dropFromQueue l i).slot i = some r from hr]
  rw [this]
  exact State.leave_lawful hb hr hs (by simp [FootRecord.unreserve, hs, FootRecord.moveTo, RecordState.hold])

theorem State.adoptRecord_holders (hr : s.slot i = some r) (hs : r.state = .candidate) (hp : (s.leg l).phase = .idle) :
    KeepsHolders s (s.adoptRecord l i r) := by
  refine ⟨fun hb => (((State.supportChanged_tame true).trans (State.deliverSlipCount_tame l _)).trans
    State.recount_tame).lawful ?_⟩
  rw [State.board_setPort, State.board_setLeg, State.board_setSlot, Option.bind_some]
  have : (r.adoptFor s.seq.stride l).state.hold = some (.stood, l) := by
    simp [FootRecord.adoptFor, hs, FootRecord.moveTo, RecordState.hold]
  rw [this]
  exact hb.stand (h := s.handleOf i) ((State.board_mark hr).trans (by rw [hs]; rfl)) rfl hp

/-- The redirected leg's records: the old target CANDIDATE, the front the new target. -/
theorem State.redirect_lawful {old : Handle} (hb : s.board.Lawful) (e : s.frontTest l = .usable h)
    (ho : (s.leg l).target = some old) (hs : Safety.stands p = Safety.stands (s.leg l).phase)
    (ha : Safety.aims p = true) :
    (((s.modRecord old.index (FootRecord.releaseTarget s.seq.stride l)).takeFront l h).board.setLeg l p
      (s.leg l).stance (some h)).Lawful := by
  obtain ⟨hh, r, hr, hrs⟩ := State.frontTest_usable e
  obtain ⟨r', hr', hrs'⟩ := State.slot_of_target hb ho
  have hne : old.index ≠ h.index := by
    intro e
    rw [e, hr] at hr'
    cases hr'
    rw [hrs] at hrs'
    cases hrs'
  have released : (r'.releaseTarget s.seq.stride l).state.hold = none := by
    simp [FootRecord.releaseTarget, hrs', FootRecord.moveTo, RecordState.hold]
  rw [State.board_takeFront (r := r) (by simp [State.modRecord, hr', hne, hr]) hrs, State.board_modRecord _ hr', released]
  exact hb.redirect hh ho hs ha

theorem State.redirectTo_holders (hp : (s.leg l).phase = .swing ∨ (s.leg l).phase = .descent)
    (e : s.frontTest l = .usable h) : KeepsHolders s (s.redirectTo l h) := by
  refine ⟨fun hb => ?_⟩
  have hst : Safety.stands (s.leg l).phase = false := by rcases hp with hp | hp <;> rw [hp] <;> rfl
  obtain ⟨old, ho⟩ := State.target_of_aims hb (l := l) (by rcases hp with hp | hp <;> rw [hp] <;> rfl)
  have aimed := State.redirect_lawful (p := .swing) hb e ho hst.symm rfl
  have hleg : ((s.modRecord old.index (FootRecord.releaseTarget s.seq.stride l)).takeFront l h).leg l = s.leg l :=
    (State.takeFront_leg l).trans (congrArg (PerLeg.get · l) (State.modRecord_legs _))
  unfold State.redirectTo
  simp only [ho]
  generalize (s.modRecord old.index (FootRecord.releaseTarget s.seq.stride l)).takeFront l h = a at aimed hleg ⊢
  have placed : ((a.setLeg l { a.leg l with
      phase := .swing, target := some h, bounce := 0, descentTimer := .stopped }).composePlace l).board.Lawful := by
    refine State.composePlace_lawful ?_ (by simp [Safety.stands])
    rw [State.board_setLeg, hleg]
    exact aimed
  generalize (a.setLeg l { a.leg l with
    phase := .swing, target := some h, bounce := 0, descentTimer := .stopped }).composePlace l = b at placed ⊢
  have reported := State.reportToSequencer_tame (s := b) l
  exact (Tame.trans (.ite (fun _ => reported.trans (State.seekAfterEntry_tame l)) fun _ => reported)
    State.recount_tame).lawful placed

/-! ### The commands -/

/-- Whoever sends it, the command's effect keeps the law of the holders. -/
def EffectKeepsHolders (effect : Client → State → Effect) : Prop := ∀ c s, KeepsHolders s (effect c s).2

theorem KeepsHolders.permitted {allowed : Client → Bool} {body : Effect} (hb : KeepsHolders s body.2) :
    KeepsHolders s (permitted allowed c s body).2 := by
  unfold Machine.permitted
  split
  · exact hb
  · exact .refl _

theorem KeepsHolders.permittedIdle {allowed : Client → Bool} {body : Effect} (hb : KeepsHolders s body.2) :
    KeepsHolders s (permittedIdle allowed c s body).2 := by
  refine .permitted ?_
  split
  · exact .refl _
  · exact hb

theorem takeSubmit_holders (x y z classWord : Word) : EffectKeepsHolders (takeSubmit x y z classWord) := by
  refine fun c s => .permittedIdle ?_
  split
  · exact .refl _
  split
  · exact .refl _
  rename_i i hi
  have hf : s.slot i = none := by simpa using List.find?_some hi
  refine KeepsHolders.trans (.of_board ?_) State.recount_tame.holders
  rw [State.board_setSlot]
  exact (congrArg (s.board.setMark i) (State.board_mark_free hf).symm).trans (Board.setMark_self ..)

theorem amendReserved_holders {content : StoredContent} (hr : s.slot i = some r) (hs : r.state = .reserved l) :
    KeepsHolders s (amendReserved l i r content s).2 := by
  unfold amendReserved
  dsimp only
  split
  · exact KeepsHolders.trans (.setSlot { r with content := content } hr rfl) (State.reportQueue_tame ..).holders
  · exact ⟨fun hb => ((State.reportQueue_tame ..).trans State.recount_tame).lawful (State.leave_lawful hb hr hs rfl)⟩

theorem amendRecord_holders (mask x y z classWord : Word) (hr : s.slot i = some r) :
    KeepsHolders s (amendRecord mask x y z classWord i r s).2 := by
  unfold amendRecord
  split
  · unfold amendNothing
    split
    · exact (State.reportQueue_tame ..).holders
    · exact State.recount_tame.holders
    all_goals exact .refl _
  · dsimp only
    generalize s.amendedContent mask x y z classWord r.content (s.gen i) = content
    split
    case h_1 hs => exact amendReserved_holders hr hs
    case h_2 hs => exact KeepsHolders.trans (.setSlot { r with content := content } hr rfl) State.recount_tame.holders
    case h_3 hs =>
      split
      · exact KeepsHolders.trans (.setSlot (FootRecord.moveTo { r with content := content } .candidate s.seq.stride) hr
          (by rw [hs]; rfl)) State.recount_tame.holders
      · exact .setSlot _ hr rfl
    all_goals exact .refl _

theorem takeAmend_holders (handle mask x y z classWord : Word) :
    EffectKeepsHolders (takeAmend handle mask x y z classWord) := by
  refine fun c s => .permittedIdle ?_
  split
  · exact .refl _
  split
  · exact .refl _
  · rename_i i r hn
    split
    · exact .refl _
    · exact amendRecord_holders _ _ _ _ _ (State.named_slot hn)

theorem takeQuery_holders (handle : Word) : EffectKeepsHolders (takeQuery handle) := by
  refine fun c s => .permittedIdle ?_
  split
  · exact .refl _
  · rename_i i r hn
    split
    · exact .refl _
    split
    · exact .refl _
    · exact State.failRecord_holders (State.named_slot hn)

/-- A record that FIND chooses is CANDIDATE. -/
theorem State.findBest_candidate {x y radius minConfidence : Word} {d : Nat}
    (hf : s.findBest x y radius minConfidence = some (i, d)) (hr : s.slot i = some r) : r.state = .candidate := by
  have qualifies (best : Option (RecordIndex × Nat)) (is : List RecordIndex)
      (hbest : ∀ j e, best = some (j, e) → s.findDistance x y radius minConfidence j = some e) :
      ∀ j e, is.foldl (fun best i => nearer best i (s.findDistance x y radius minConfidence i)) best = some (j, e) →
        s.findDistance x y radius minConfidence j = some e := by
    induction is generalizing best with
    | nil => exact hbest
    | cons k is ih =>
      refine ih _ fun j e he => ?_
      dsimp only at he
      unfold nearer at he
      split at he
      · exact hbest j e he
      · cases he
        assumption
      · split at he
        · cases he
          assumption
        · cases he
          exact hbest _ _ rfl
  have hq := qualifies none allIndexes (by simp) i d hf
  unfold State.findDistance at hq
  rw [hr] at hq
  dsimp only at hq
  split at hq
  · rename_i e
    exact e.1
  · cases hq

theorem findLoop_holders (x y radius minConfidence : Word) (n : Nat) (s : State) (freed : Bool) :
    KeepsHolders s (findLoop x y radius minConfidence n (s, freed)).2.1 := by
  induction n generalizing s freed with
  | zero => exact .refl _
  | succ n ih =>
    unfold findLoop
    split
    · exact .refl _
    rename_i i d hf
    split
    · exact .refl _
    rename_i r hr
    split
    · exact .refl _
    · exact (State.freeFailed_holders hr (.inl (State.findBest_candidate hf hr))).trans (ih _ _)

theorem takeFind_holders (x y radius minConfidence : Word) : EffectKeepsHolders (takeFind x y radius minConfidence) := by
  refine fun c s => .permittedIdle ?_
  split
  · exact .refl _
  · exact (findLoop_holders x y radius minConfidence 41 s false).trans (State.recountIf_tame _).holders

theorem retireRecord_holders (hr : s.slot i = some r) : KeepsHolders s (retireRecord c i r s).2 := by
  unfold retireRecord
  split
  case h_1 hs => exact (State.freeRecord_holders .client hr (.inl hs)).trans State.recount_tame.holders
  case h_2 hs => exact State.freeRecord_holders .client hr (.inr hs)
  case h_3 o hs =>
    split
    · exact .refl _
    all_goals
      refine ⟨fun hb => (State.reportQueue_tame ..).lawful ?_⟩
      rw [State.board_freeRecord (s := s.dropFromQueue o i) .client hr, State.board_dropFromQueue]
      exact hb.leave (by rw [State.board_mark hr, hs, RecordState.hold]) _
  all_goals exact .refl _

theorem takeRetire_holders (handle : Word) : EffectKeepsHolders (takeRetire handle) := by
  refine fun c s => .permittedIdle ?_
  split
  · exact .refl _
  · rename_i hn
    exact retireRecord_holders (State.named_slot hn)

theorem takeRestore_holders (handle x y z classWord friction : Word) :
    EffectKeepsHolders (takeRestore handle x y z classWord friction) := by
  refine fun c s => .permittedIdle ?_
  split
  · exact .refl _
  split
  · exact .refl _
  rename_i i r hn
  split
  · exact .refl _
  split
  · rename_i hs
    refine (KeepsHolders.setSlot _ (State.named_slot hn) ?_).trans State.computeCurrent_tame.holders
    rw [hs]
    rfl
  all_goals exact .refl _

theorem takeRebase_holders (dx dy dz : Word) : EffectKeepsHolders (takeRebase dx dy dz) := by
  refine fun c s => .permittedIdle ?_
  split
  · exact .refl _
  split
  · exact .refl _
  split
  · exact .refl _
  · have walking : KeepsHolders s (s.setStore { s.store with walk := some ⟨some 0, dx, dy, dz, 0⟩ }) := .of_board rfl
    exact (walking.trans (State.addReason_tame .rebase).holders).trans (State.setBal_tame _).holders

theorem takeReserve_holders (leg handle : Word) : EffectKeepsHolders (takeReserve leg handle) := by
  refine fun c s => .permittedIdle ?_
  split
  · exact .refl _
  rename_i l hl
  split
  · exact .refl _
  rename_i i r hn
  have hr := State.named_slot hn
  unfold reserveChecks
  split
  · exact .refl _
  rename_i hs
  split
  · exact .refl _
  rename_i hq
  split
  · exact .refl _
  split
  · exact .refl _
  split
  · exact State.failRecord_holders hr
  split
  · exact .refl _
  · exact State.reserveRecord_holders hr (Decidable.not_not.1 hs) (Nat.not_le.1 hq)

theorem takeCancel_holders (handle : Word) : EffectKeepsHolders (takeCancel handle) := by
  refine fun c s => .permittedIdle ?_
  split
  · exact .refl _
  rename_i i r hn
  split
  · rename_i hs
    exact State.cancelRecord_holders (State.named_slot hn) hs
  all_goals exact .refl _

theorem takeAdopt_holders (leg handle : Word) : EffectKeepsHolders (takeAdopt leg handle) := by
  refine fun c s => .permittedIdle ?_
  split
  · exact .refl _
  rename_i l hl
  split
  · exact .refl _
  rename_i i r hn
  have hr := State.named_slot hn
  unfold adoptChecks
  split
  · exact .refl _
  rename_i hp
  split
  · exact .refl _
  split
  · exact .refl _
  rename_i hs
  split
  · exact .refl _
  split
  · exact State.failRecord_holders hr
  split
  · exact .refl _
  · exact State.adoptRecord_holders hr (Decidable.not_not.1 hs) (Decidable.not_not.1 hp)

theorem takeRedirect_holders (leg : Word) : EffectKeepsHolders (takeRedirect leg) := by
  refine fun c s => .permittedIdle ?_
  split
  · exact .refl _
  unfold redirectChecks
  split
  · exact .refl _
  rename_i l hl hp
  split
  · exact .refl _
  · exact .refl _
  · rename_i e
    obtain ⟨r, hr, hs, _⟩ := State.frontTest_failed e
    exact ((State.failReserved_tame hr hs).trans (State.reportQueue_tame ..)).holders
  · rename_i e
    refine State.redirectTo_holders ?_ e
    by_cases hsw : (s.leg l).phase = .swing
    · exact .inl hsw
    · exact .inr (Decidable.not_not.1 fun hd => hp ⟨hsw, hd⟩)

theorem takeRelink_holders (leg : Word) : EffectKeepsHolders (takeRelink leg) := by
  refine fun c s => .permitted ?_
  split
  · exact .refl _
  · exact (KeepsHolders.setPort _ _).trans (State.declareDown_holders _ _)

theorem State.leaveTo_tame (g : Gait) : Tame s (s.leaveTo g) := State.setSeq_tame _

theorem State.standNow_tame : Tame s s.standNow :=
  ((State.leaveTo_tame .standing).trans (.foldl (fun _ l => State.withdrawLift_tame l) _ _)).trans
    (State.recountIf_tame _)

theorem KeepsHolders.gaitPermitted {body : Effect} (hb : KeepsHolders s body.2) :
    KeepsHolders s (gaitPermitted c s body).2 := by
  unfold Machine.gaitPermitted
  split
  · exact hb
  · exact .refl _

theorem standEffect_tame : Tame s (standEffect s).2 := by
  unfold standEffect
  split
  · split
    · exact State.leaveTo_tame _
    · exact .refl _
  · split
    · exact State.leaveTo_tame _
    · exact State.standNow_tame
  · split
    · exact State.leaveTo_tame _
    · exact State.standNow_tame
  all_goals exact .refl _

theorem walkEffect_tame : Tame s (walkEffect s).2 := by
  unfold walkEffect
  split
  · split
    · exact (((State.setSeq_tame _).trans (State.setSeq_tame _)).trans State.settleGait_tame).trans State.evaluate_tame
    · exact .refl _
  · exact State.removeReason_tame _
  all_goals exact .refl _

theorem pauseEffect_tame : Tame s (pauseEffect s).2 := by
  unfold pauseEffect
  split
  · exact State.addReason_tame _
  · exact State.addReason_tame _
  all_goals exact .refl _

theorem offEffect_tame : Tame s (offEffect s).2 := by
  unfold offEffect
  split
  case h_1 | h_2 =>
    split
    · exact .refl _
    · exact State.setSeq_tame _
  all_goals exact .refl _

theorem patternEffect_tame (p : Pattern) : Tame s (patternEffect p s).2 := by
  unfold patternEffect
  split
  · exact State.setSeq_tame _
  · exact State.setSeq_tame _
  all_goals exact .refl _

theorem takeGait_holders (mode : Word) : EffectKeepsHolders (takeGait mode) := by
  refine fun c s => .gaitPermitted (Tame.holders ?_)
  unfold gaitEffect
  split
  · exact standEffect_tame
  · exact walkEffect_tame
  · exact pauseEffect_tame
  · exact offEffect_tame
  · exact State.haltCause_tame _
  · exact patternEffect_tame _
  · exact patternEffect_tame _
  all_goals exact .refl _

theorem takeResume_holders : EffectKeepsHolders takeResume := by
  intro c s
  unfold takeResume
  repeat' split
  case isFalse.isFalse.isFalse.isFalse.isFalse => exact (State.setSeq_tame _).holders
  all_goals exact .refl _

theorem State.acceptPose_tame (x y pitch roll : Word) : Tame s (s.acceptPose x y pitch roll) :=
  ((((State.setBal_tame _).trans State.computeCurrent_tame).trans (State.deliver_tame ..)).trans
    (State.deliver_tame ..)).trans State.evaluateIfWalking_tame

theorem takePose_holders (x y pitch roll : Word) : EffectKeepsHolders (takePose x y pitch roll) := by
  refine fun c s => .permittedIdle ?_
  split
  · exact .refl _
  · exact (State.acceptPose_tame x y pitch roll).holders

theorem State.configureTerm_tame (n : Fin 8) (v : WatchTerm) : Tame s (s.configureTerm n v) :=
  State.recountOverflow_tame s ((State.setTrips_tame _).trans (State.testTrips_tame false _ _))

theorem takeTerm_holders (number enable source leg relation threshold : Word) :
    EffectKeepsHolders (takeTerm number enable source leg relation threshold) := by
  refine fun c s => .permitted ?_
  split
  · exact .refl _
  · exact (State.configureTerm_tame _ _).holders

theorem State.tripReport_tame : Tame s s.tripReport := .ite (fun _ => .refl _) fun _ => State.removeReason_tame _

theorem State.armTrip_tame (n : Fin 4) : Tame s (s.armTrip n) := by
  unfold State.armTrip
  dsimp only
  split
  case h_3 =>
    exact .ite (fun _ => .ite (fun _ => (State.setTrip_tame n _).trans (State.fireTrip_tame false n))
      fun _ => State.setTrip_tame n _) fun _ => State.setTrip_tame n _
  all_goals
    exact .ite (fun _ => (State.setTrip_tame n _).trans (State.fireTrip_tame false n)) fun _ => State.setTrip_tame n _

theorem takeTrip_holders (trip operation mode action terms window : Word) :
    EffectKeepsHolders (takeTrip trip operation mode action terms window) := by
  refine fun c s => .permitted ?_
  split
  · exact .refl _
  rename_i n _
  split
  · unfold configureEffect
    split
    · exact .refl _
    · exact ((State.setTrip_tame n _).trans State.tripReport_tame).holders
  · unfold armEffect
    split
    case h_1 | h_2 =>
      exact ((State.recountOverflow_tame s (State.armTrip_tame n)).trans State.tripReport_tame).holders
    all_goals exact State.tripReport_tame.holders
  · exact ((State.setTrip_tame n _).trans State.tripReport_tame).holders
  · exact .refl _

theorem State.setNode_tame (n : NodeNumber) (v : Node) : Tame s (s.setNode n v) := .of_eq rfl rfl

theorem State.clearNode_tame (n : NodeNumber) (v : Node) : Tame s (s.clearNode n v) :=
  .ite (fun _ => State.setNode_tame _ _) fun _ => State.setNode_tame _ _

theorem takeAttention_holders (node priority flags : Word) : EffectKeepsHolders (takeAttention node priority flags) := by
  refine fun c s => .permitted ?_
  split
  · exact (Tame.ite (fun _ => State.setNode_tame _ _) fun _ =>
      .ite (fun _ => State.clearNode_tame _ _) fun _ => State.setNode_tame _ _).holders
  · exact .refl _

theorem takeVector_holders : EffectKeepsHolders takeVector := by
  refine fun c s => .permitted ?_
  split
  · exact (State.clearNode_tame _ _).holders
  · exact .refl _

theorem takeLane_holders (arrival : Lane) (lane operation : Word) :
    EffectKeepsHolders (takeLane arrival lane operation) := by
  refine fun c s => .permitted ?_
  split
  · split
    · exact .refl _
    split
    · exact .refl _
    · exact .of_board rfl
  · exact .refl _

theorem takeSetparam_holders (parameter value : Word) : EffectKeepsHolders (takeSetparam parameter value) := by
  refine fun c s => .permitted ?_
  split
  · exact .refl _
  rename_i n _
  split
  · exact .refl _
  · have written : Tame s { s with params := s.params.set n value } := .of_eq rfl rfl
    exact (((written.trans State.evaluateIfWalking_tame).trans State.seekAll_tame).trans
      (State.recountIf_tame _)).holders

theorem takeFriction_holders (surfaceClass coefficient derate : Word) :
    EffectKeepsHolders (takeFriction surfaceClass coefficient derate) := by
  refine fun c s => .permitted ?_
  split
  · exact .refl _
  rename_i n _
  split
  · exact .refl _
  · have written (e : FrictionEntry) :
        Tame s (s.setStore { s.store with friction := s.store.friction.set n e }) := .of_eq rfl rfl
    exact (((written _).trans State.evaluateIfWalking_tame).trans State.seekAll_tame).holders

theorem takeQueue_holders (leg : Word) : EffectKeepsHolders (takeQueue leg) := by
  refine fun c s => .permitted ?_
  split <;> exact .refl _

theorem takeLegstate_holders (leg : Word) : EffectKeepsHolders (takeLegstate leg) := by
  refine fun c s => .permitted ?_
  split <;> exact .refl _

theorem takeGetparam_holders (parameter : Word) : EffectKeepsHolders (takeGetparam parameter) := by
  refine fun c s => .permitted ?_
  split <;> exact .refl _

theorem takeGetfriction_holders (surfaceClass : Word) : EffectKeepsHolders (takeGetfriction surfaceClass) := by
  refine fun c s => .permitted ?_
  split <;> exact .refl _

/-- Every command of the command code table keeps the law of the holders. -/
theorem effectOf_holders : ∀ e ∈ effectOf lane code data, EffectKeepsHolders e := by
  unfold effectOf
  split
  · exact forall_mem_words4 takeSubmit_holders
  · exact forall_mem_words6 takeAmend_holders
  · exact forall_mem_words1 takeQuery_holders
  · exact forall_mem_words4 takeFind_holders
  · exact forall_mem_words1 takeRetire_holders
  · exact forall_mem_words6 takeRestore_holders
  · exact forall_mem_words3 takeRebase_holders
  · exact forall_mem_words2 takeReserve_holders
  · exact forall_mem_words1 takeCancel_holders
  · exact forall_mem_words1 takeQueue_holders
  · exact forall_mem_words2 takeAdopt_holders
  · exact forall_mem_words1 takeRedirect_holders
  · exact forall_mem_words1 takeLegstate_holders
  · exact forall_mem_words1 takeRelink_holders
  · exact forall_mem_words1 takeGait_holders
  · exact forall_mem_words0 takeResume_holders
  · exact forall_mem_words4 takePose_holders
  · exact forall_mem_words0 fun c s => .permittedIdle (.refl _)
  · exact forall_mem_words6 takeTerm_holders
  · exact forall_mem_words6 takeTrip_holders
  · exact forall_mem_words0 fun c s => .permitted (.refl _)
  · exact forall_mem_words3 takeAttention_holders
  · exact forall_mem_words0 takeVector_holders
  · exact forall_mem_words0 fun c s => .permitted (.refl _)
  · exact forall_mem_words0 fun c s => .permitted (.of_board rfl)
  · exact forall_mem_words0 fun c s => .permitted (.refl _)
  · exact forall_mem_words0 fun c s => .permitted (.refl _)
  · exact forall_mem_words2 (takeLane_holders lane)
  · exact forall_mem_words0 fun c s => .permitted (.refl _)
  · exact forall_mem_words2 takeSetparam_holders
  · exact forall_mem_words1 takeGetparam_holders
  · exact forall_mem_words3 takeFriction_holders
  · exact forall_mem_words1 takeGetfriction_holders
  · exact nofun

/-! ### A frame's arrival and answer, every event, and the step -/

namespace KeepsHolders

/-- The law of the holders holds after a reset, whatever held before it. -/
theorem takeReset (straps : BitVec 4) : KeepsHolders t (s.takeReset straps) :=
  have fresh : (State.resetWith straps).board.Lawful := holderLaw_iff.1 (Proofs.holderLaw_resetWith straps)
  ⟨fun _ => fresh⟩

theorem respond (r : Reply) : KeepsHolders s (s.respond head code r) :=
  .ite (fun _ => .ite (fun _ => .takeReset _) fun _ => .refl _) fun _ => .of_board rfl

theorem noteCommand : KeepsHolders s (s.noteCommand head code count) := .ite (fun _ => .refl _) fun _ => .of_board rfl

theorem takeCommand {body : State → Effect} (hb : ∀ u, KeepsHolders u (body u).2) :
    KeepsHolders s (s.takeCommand head code count body) :=
  have owner := noteCommand.trans (hb (s.noteCommand head code count))
  .ite (fun _ => owner) fun _ => owner.trans (.respond _)

/-- A frame changes no more than its owner's effect and the lane interface, or cuts a RESET's response (R174, R183). -/
theorem arrive (he : EffectKeepsHolders effect) : KeepsHolders s (s.arrive head code count data effect) := by
  refine .ite (fun _ => .refl _) fun _ => .ite (fun _ => .refl _) fun _ => ?_
  split
  · exact .takeReset _
  · have cut : KeepsHolders s (s.setLanes { s.lanes with inFlight := none }) := .of_board rfl
    dsimp only
    split
    · exact cut.trans (.of_board rfl)
    · exact .ite (fun _ => cut.trans (.of_board rfl)) fun _ => cut.trans (.takeCommand (he _))

/-- An event keeps the law if its effect does. -/
theorem event {f : State → State} (hf : ∀ u, KeepsHolders u (f u)) (hg : Machine.event s f = .next t) :
    KeepsHolders s t := by
  obtain rfl := Host.Outcome.next.inj hg
  have begun : KeepsHolders s { s with ordersSent := [] } := .of_board rfl
  exact begun.trans (hf { s with ordersSent := [] })

end KeepsHolders

theorem State.frameArrives_holders (header check : Word) :
    KeepsHolders s (s.frameArrives lane header data check) := by
  refine .ite (fun _ => .refl _) fun _ => .ite (fun _ => .of_board rfl) fun _ => .arrive fun c u => ?_
  cases he : effectOf lane (codeOf header) data with
  | none => exact .refl _
  | some e => exact effectOf_holders e he c u

theorem State.sweepRecord_holders (hr : s.slot i = some r) : KeepsHolders s (s.sweepRecord i r) := by
  unfold State.sweepRecord
  split
  case h_1 hs =>
    exact .ite (fun _ => (State.freeRecord_holders .expired hr (.inl hs)).trans State.recount_tame.holders)
      fun _ => .refl _
  case h_2 hs => exact .ite (fun _ => State.freeRecord_holders .expired hr (.inr hs)) fun _ => .refl _
  all_goals exact .refl _

theorem State.sweepVisit_holders : KeepsHolders s s.sweepVisit := by
  unfold State.sweepVisit
  split
  · exact .refl _
  have moved (sweep : Option RecordIndex) : KeepsHolders s (s.setStore { s.store with sweep := sweep }) := .of_board rfl
  dsimp only
  split
  · exact moved _
  · rename_i hr
    exact (moved _).trans (State.sweepRecord_holders hr)

theorem State.walkOn_holders (w : RebaseWalk) (n : Nat) : KeepsHolders s (s.walkOn w i n) := .of_board rfl

theorem State.walkVisit_holders : KeepsHolders s s.walkVisit := by
  unfold State.walkVisit
  split
  · exact .refl _
  rename_i w _
  split
  · exact .refl _
  rename_i i _
  split
  · exact State.walkOn_holders w _
  rename_i r hr
  have shifted (content : StoredContent) :
      KeepsHolders s ((s.walkOn w i w.retired).setSlot i (some { r with content := content })) :=
    (State.walkOn_holders w _).trans (.setSlot (s := s.walkOn w i w.retired) _ hr rfl)
  have retired (hu : r.Unheld) : KeepsHolders s ((s.walkOn w i (w.retired + 1)).freeRecord i .outOfFrame) :=
    (State.walkOn_holders w _).trans (State.freeRecord_holders (s := s.walkOn w i (w.retired + 1)) _ hr hu)
  unfold State.walkRecord
  dsimp only
  split
  case h_1 hs => exact .ite (fun _ => shifted _) fun _ => (retired (.inl hs)).trans State.recount_tame.holders
  case h_2 hs => exact .ite (fun _ => shifted _) fun _ => retired (.inr hs)
  all_goals exact shifted _

theorem State.completeWalk_holders (w : RebaseWalk) : KeepsHolders s (s.completeWalk w) :=
  have ended : Tame s (s.setStore { s.store with walk := none }) := .of_eq rfl rfl
  ((((ended.trans (State.removeReason_tame .rebase)).trans State.computeCurrent_tame).trans State.seekAll_tame).trans
    (State.pend_tame _ _)).holders

theorem execResponseEnd_holders (hg : execResponseEnd s = .next t) : KeepsHolders s t := by
  refine .event (fun u => ?_) hg
  split
  · exact .refl _
  · exact .takeReset _
  · exact .of_board rfl

theorem execDescentTimerExpiry_holders (hg : execDescentTimerExpiry l s = .next t) : KeepsHolders s t :=
  .event (fun _ => .ite (fun e => State.missVoid_holders e.1) fun _ => .refl _) hg

theorem execSettleTimerExpiry_holders (hg : execSettleTimerExpiry l s = .next t) : KeepsHolders s t :=
  .event (fun _ => .ite (fun e => State.confirmStance_holders e.1) fun _ => .refl _) hg

theorem execSwingTimerExpiry_holders (hg : execSwingTimerExpiry l s = .next t) : KeepsHolders s t := by
  refine .event (fun u => .ite (fun _ => ?_) fun _ => .refl _) hg
  have stopped : KeepsHolders u (u.setLeg l { u.leg l with swingTimer := .stopped }) := .setLeg rfl rfl rfl
  exact stopped.trans (State.haltCause_tame _).holders

theorem execRebaseWalkCompletion_holders (hg : execRebaseWalkCompletion s = .next t) : KeepsHolders s t := by
  refine .event (fun u => ?_) hg
  split
  · exact .refl _
  · exact .ite (fun _ => State.completeWalk_holders _) fun _ => .refl _

theorem execLift_holders (hg : execLift s = .next t) : KeepsHolders s t := by
  refine .event (fun u => ?_) hg
  split
  · exact .refl _
  · exact .ite (fun _ => .refl _) fun _ => State.takeLift_holders _

theorem execStoredContentDisturbance_holders {content : StoredContent}
    (hg : execStoredContentDisturbance i content s = .next t) : KeepsHolders s t := by
  refine .event (fun u => ?_) hg
  split
  · exact .refl _
  · rename_i hr
    exact .ite (fun _ => .refl _) fun _ => .setSlot _ hr rfl

/-- A row that stands for no client's frame keeps the law of the holders. -/
theorem exec_holders_of_frameOf_eq_none {i : Instr} (hi : frameOf i = none) (hg : Gives i s t) : KeepsHolders s t := by
  cases i with
  | commandFrameCheckFailure | frameForOtherStation | malformedFrame =>
    exact .event (fun _ => State.frameArrives_holders _ _) hg
  | responseEnd => exact execResponseEnd_holders hg
  | powerOnReset straps => exact .event (fun _ => .takeReset straps) hg
  | contactReport l f n w k => exact .event (fun _ => State.takeReport_holders l f n w k) hg
  | echoTimerExpiry l => exact .event (fun _ => State.echoExpiry_holders l) hg
  | livenessWindowEnd l => exact .event (fun _ => State.windowEnd_holders l) hg
  | slipRearmTimerExpiry l => exact .event (fun _ => State.rearmExpiry_holders l) hg
  | descentTimerExpiry l => exact execDescentTimerExpiry_holders hg
  | settleTimerExpiry l => exact execSettleTimerExpiry_holders hg
  | swingTimerExpiry l => exact execSwingTimerExpiry_holders hg
  | poseTimerExpiry =>
    exact .event (fun _ =>
      .ite (fun _ => ((State.setBal_tame _).trans State.evaluateIfWalking_tame).holders) fun _ => .refl _) hg
  | tripWindowExpiry n =>
    exact .event (fun _ => .ite (fun _ => (State.setTrip_tame n _).holders) fun _ => .refl _) hg
  | sweepVisit => exact .event (fun _ => State.sweepVisit_holders) hg
  | rebaseWalkVisit => exact .event (fun _ => State.walkVisit_holders) hg
  | rebaseWalkCompletion => exact execRebaseWalkCompletion_holders hg
  | lift => exact execLift_holders hg
  | storedContentDisturbance i k => exact execStoredContentDisturbance_holders hg
  | _ => cases hi

theorem exec_holders {i : Instr} (hg : Gives i s t) : KeepsHolders s t := by
  cases hi : frameOf i with
  | none => exact exec_holders_of_frameOf_eq_none hi hg
  | some frame =>
    obtain ⟨h, code, data⟩ := frame
    obtain ⟨e, he, hx⟩ := exec_eq_effectOf hi
    exact .event (fun _ => .arrive (effectOf_holders e he)) ((hx s).symm.trans hg)

/-- Every step keeps the law of the holders. -/
theorem step_holders (hg : step s = .next t) : KeepsHolders s t := by
  unfold step at hg
  split at hg
  · unfold takeWaitingReport at hg
    split at hg
    · cases hg
      exact .refl _
    · exact .event (fun _ => (State.hearNewFront_tame _).holders) hg
  · rename_i rest _
    have taken : KeepsHolders s { s with pending := rest } := .of_board rfl
    exact taken.trans (exec_holders hg)

end Sys2Proof.Machine
end

section
namespace Sys2Proof.Proofs

open Machine

/-- Settles O58: the law of the holders is a law of the board, which every cascade and every change of holder keeps. -/
theorem everyRecordHasItsHolder : Obligations.EveryRecordHasItsHolder := by
  unfold Obligations.EveryRecordHasItsHolder
  intro s t hs ht
  exact holderLaw_iff.2 ((step_holders ht).lawful (holderLaw_iff.1 hs))

end Sys2Proof.Proofs
end

section
/-! SUPPORT. Frames that are not taken, and the two checks that every command makes first (R42, R174, R175, R177, R178). -/

namespace Sys2Proof.Machine

open Claims

variable {s t : State} {h : FrameHead} {code : BitVec 6} {data : List Word} {c : Client} {lane : Lane} {header : Word}
  {effect : Client → State → Effect} {allowed : Client → Bool} {body : State → Effect} {w : Response}

/-! ### Frames not taken -/

theorem frameEvent_sending (hq : s.sendingOn h.lane = true) : frameEvent s h code data effect = .next (begun s) :=
  congrArg Host.Outcome.next (State.arrive_sending (s := begun s) hq)

/-- A frame for another station changes nothing, on whatever lane. -/
theorem State.arrive_not_addressed (ha : s.addressed h = false) {count : BitVec 4} :
    s.arrive h code count data effect = s := by
  cases hq : s.sendingOn h.lane with
  | true => exact State.arrive_sending hq
  | false => exact State.arrive_elsewhere hq ha

theorem frameEvent_elsewhere (ha : s.addressed h = false) : frameEvent s h code data effect = .next (begun s) :=
  congrArg Host.Outcome.next (State.arrive_not_addressed (s := begun s) ha)

theorem State.addressed_eq_false (hs : h.station ≠ 15) (ho : h.station ≠ s.lanes.station ∨ s.lanes.station = 0) :
    s.addressed h = false := by
  refine Bool.eq_false_iff.2 fun ha => ?_
  rcases State.addressed_iff.1 ha with e | ⟨e, hz⟩
  · exact hs e
  · exact ho.elim (fun ho => ho e) hz

/-! ### Malformed frames -/

theorem clientOf_eq_none (hc : h.client = 0#2) : clientOf h.client = none := by rw [hc]; rfl

/-- A frame for this station that is malformed cuts a response on the other lane and sets ME (R175, R180). -/
theorem State.arrive_malformed {count : BitVec 4} (hq : s.sendingOn h.lane = false) (ha : s.addressed h = true)
    (hf : ∀ r, s.lanes.inFlight = some r → r.thenReset = false) (hm : malformedForm h code count data = true) :
    s.arrive h code count data effect = { s with lanes := { s.lanes with inFlight := none, me := true } } := by
  rw [State.arrive_cut hq ha hf, hm]
  dsimp only
  split <;> rfl

/-- The ways in which a frame is malformed (R175). -/
theorem malformedForm_iff {count : BitVec 4} :
    malformedForm h code count data = true ↔
      h.client = 0 ∨ commandCount code ≠ some count.toNat ∨ data.length ≠ count.toNat
        ∨ (h.station = 15 ∧ mayBroadcast code data = false) := by
  simp [malformedForm, isBroadcast_iff, or_assoc]

/-- POSE and GAIT HALT alone may be broadcast (R175). -/
theorem mayBroadcast_eq_false (hp : code ≠ 18) (hg : code ≠ 16 ∨ data.head? ≠ some 4) :
    mayBroadcast code data = false := by
  have hp' : (code == 18) = false := beq_eq_false_iff_ne.2 hp
  have hg' : (code == 16 && data.head? == some 4) = false := by
    rcases hg with hg | hg
    · exact Bool.and_eq_false_imp.2 fun e => absurd (beq_iff_eq.1 e) hg
    · exact Bool.eq_false_iff.2 fun e => hg (beq_iff_eq.1 (Bool.and_eq_true_iff.1 e).2)
  unfold mayBroadcast
  rw [hp', hg']
  rfl

/-- A command noted leaves the transmitters as they are. -/
theorem noted_isShut {count : BitVec 4} (l : Lane) : (noted s h code count).lanes.isShut l = s.lanes.isShut l := by
  cases l <;> rfl

/-! ### Permission and BUSY -/

theorem permitted_of_eq_false {u : State} {e : Effect} (hc : allowed c = false) :
    permitted allowed c u e = refuse u .notPermitted := if_neg (by simp [hc])

theorem permitted_of_eq_true {u : State} {e : Effect} (hc : allowed c = true) : permitted allowed c u e = e := if_pos hc

theorem permittedIdle_busy {u : State} {e : Effect} (hc : allowed c = true) (hb : u.rebasing = true) :
    permittedIdle allowed c u e = refuse u .busy := (permitted_of_eq_true hc).trans (if_pos hb)

theorem permittedIdle_idle {u : State} {e : Effect} (hc : allowed c = true) (hb : u.rebasing = false) :
    permittedIdle allowed c u e = e := (permitted_of_eq_true hc).trans (if_neg (by simp [hb]))

/-- A row whose owner's effect begins with the permission check of the table refuses an unlisted client. -/
theorem frameEvent_not_permitted (ha : Arrives s h c) (hp : mayIssue code c = false)
    (ht : ∀ c, mayIssue code c = allowed c) (he : ∀ u, effect c u = permitted allowed c u (body u))
    (hr : isReading code = false) (hn : commandCount code = some data.length) (hl : data.length < 16)
    (hg : reportsGait code = false) :
    frameEvent s h code data effect =
      .next (told s h code (BitVec.ofNat 4 data.length) .notPermitted
        (if reportsGait code then gaitReport s.seq else [])) := by
  rw [hg]
  refine frameEvent_answered ha hr hn hl ?_
  rw [he, permitted_of_eq_false ((ht c).symm.trans hp)]
  rfl

/-- A row whose owner's effect begins with both checks refuses a listed client during a rebase walk. -/
theorem frameEvent_busy (ha : Arrives s h c) (hp : mayIssue code c = true) (hb : s.rebasing = true)
    (ht : ∀ c, mayIssue code c = allowed c) (he : ∀ u, effect c u = permittedIdle allowed c u (body u))
    (hr : isReading code = false) (hn : commandCount code = some data.length) (hl : data.length < 16) :
    frameEvent s h code data effect = .next (told s h code (BitVec.ofNat 4 data.length) .busy []) := by
  refine frameEvent_answered ha hr hn hl ?_
  have hb' : (noted s h code (BitVec.ofNat 4 data.length)).rebasing = true := hb
  rw [he, permittedIdle_busy ((ht c).symm.trans hp) hb']
  rfl

theorem angleInRange_eq_false_iff {a : Word} : angleInRange a = false ↔ a.toInt < -900 ∨ 900 < a.toInt := by
  rw [angleInRange, Bool.and_eq_false_iff, decide_eq_false_iff_not, decide_eq_false_iff_not, Int.not_le, Int.not_le]

/-- POSE is accepted from a listed client outside a rebase walk with every value in range (R134). -/
theorem takePose_state (x y pitch roll : Word) (s : State) :
    (takePose x y pitch roll c s).2 =
      if c = .perception ∨ s.rebasing = true ∨ x = 0x8000 ∨ y = 0x8000
        ∨ pitch.toInt < -900 ∨ 900 < pitch.toInt ∨ roll.toInt < -900 ∨ 900 < roll.toInt then s
      else s.acceptPose x y pitch roll := by
  have listed : notPerception c = true ↔ c ≠ .perception := by cases c <;> simp [notPerception]
  unfold takePose permittedIdle permitted
  by_cases hc : c = .perception
  · rw [if_neg fun e => listed.1 e hc, if_pos (.inl hc)]
    rfl
  rw [if_pos (listed.2 hc)]
  by_cases hb : s.rebasing = true
  · rw [if_pos hb, if_pos (.inr (.inl hb))]
    rfl
  rw [if_neg hb]
  have bad : (isLowest x || isLowest y || !angleInRange pitch || !angleInRange roll) = true ↔
      x = 0x8000 ∨ y = 0x8000 ∨ pitch.toInt < -900 ∨ 900 < pitch.toInt ∨ roll.toInt < -900 ∨ 900 < roll.toInt := by
    simp [isLowest, angleInRange_eq_false_iff, or_assoc]
  simp only [bad, hc, hb, Bool.false_eq_true, false_or]
  split <;> rfl

/-- GAIT and RESUME refuse an unlisted client with the gait report. -/
theorem frameEvent_gait_not_permitted (ha : Arrives s h c) (he : ∀ u, effect c u = gaitAnswer u .notPermitted)
    (hr : isReading code = false) (hn : commandCount code = some data.length) (hl : data.length < 16)
    (hg : reportsGait code = true) :
    frameEvent s h code data effect =
      .next (told s h code (BitVec.ofNat 4 data.length) .notPermitted
        (if reportsGait code then gaitReport s.seq else [])) := by
  rw [hg]
  exact frameEvent_answered ha hr hn hl (he _)

end Sys2Proof.Machine
end

section
namespace Sys2Proof.Proofs

open Machine Claims

theorem unlistedClientsAreRefused : UnlistedClientsAreRefused := by
  intro i h code data c s hi ha hp
  cases i with
  | submit | query | find | retire | queue | legstate | margin | tripstate | condition | status | lastcmd | getparam
  | getfriction =>
    cases hi
    cases c <;> cases hp
  | amend =>
    cases hi
    exact frameEvent_not_permitted (allowed := notPlanner) ha hp (fun c => by cases c <;> rfl)
      (fun _ => rfl) rfl rfl (by simp) rfl
  | restore | rebase | relink | term | tripConfigure | tripArm | tripDisarm | attention | clearcond | laneShut | laneOpen
  | reset | setparam | friction =>
    cases hi
    exact frameEvent_not_permitted (allowed := supervisorOnly) ha hp (fun c => by cases c <;> rfl)
      (fun _ => rfl) rfl rfl (by simp) rfl
  | reserve | cancel | adopt | redirect | pose | vector =>
    cases hi
    exact frameEvent_not_permitted (allowed := notPerception) ha hp (fun c => by cases c <;> rfl)
      (fun _ => rfl) rfl rfl (by simp) rfl
  | gaitStand | gaitWalk | gaitPause | gaitOff | gaitHalt | gaitForward | gaitBackward | gaitReport =>
    cases hi
    have table : ∀ c, mayIssue 16 c = notPerception c := fun c => by cases c <;> rfl
    have hc : notPerception c = false := (table c).symm.trans hp
    exact frameEvent_gait_not_permitted ha (fun u => if_neg (by simp [hc])) rfl rfl (by simp) rfl
  | resume =>
    cases hi
    have table : ∀ c, mayIssue 17 c = supervisorOnly c := fun c => by cases c <;> rfl
    have hc : supervisorOnly c = false := (table c).symm.trans hp
    exact frameEvent_gait_not_permitted ha (fun u => if_pos (by simp [hc])) rfl rfl (by simp) rfl
  | _ => cases hi

theorem walkMakesCommandsBusy : WalkMakesCommandsBusy := by
  intro i h code data c s hi ha hp hb hw
  cases i with
  | submit | query | find | retire | margin =>
    cases hi
    exact frameEvent_busy (allowed := anyClient) ha hp hw (fun c => by cases c <;> rfl) (fun _ => rfl) rfl rfl (by simp)
  | amend =>
    cases hi
    exact frameEvent_busy (allowed := notPlanner) ha hp hw (fun c => by cases c <;> rfl)
      (fun _ => rfl) rfl rfl (by simp)
  | restore | rebase =>
    cases hi
    exact frameEvent_busy (allowed := supervisorOnly) ha hp hw (fun c => by cases c <;> rfl)
      (fun _ => rfl) rfl rfl (by simp)
  | reserve | cancel | adopt | redirect | pose =>
    cases hi
    exact frameEvent_busy (allowed := notPerception) ha hp hw (fun c => by cases c <;> rfl)
      (fun _ => rfl) rfl rfl (by simp)
  | commandFrameCheckFailure | frameForOtherStation | malformedFrame | responseEnd | powerOnReset | contactReport
  | echoTimerExpiry | livenessWindowEnd | slipRearmTimerExpiry | descentTimerExpiry | settleTimerExpiry
  | swingTimerExpiry | poseTimerExpiry | tripWindowExpiry | sweepVisit | rebaseWalkVisit | rebaseWalkCompletion | lift
  | storedContentDisturbance => cases hi
  | _ =>
    cases hi
    cases hb

/-- Settles O3: both checks stand at the head of every owner's effect. -/
theorem permissionThenBusy : Obligations.PermissionThenBusy := ⟨unlistedClientsAreRefused, walkMakesCommandsBusy⟩

theorem framesNotTakenChangeNothing : FramesNotTakenChangeNothing := by
  intro i h code data s hi hs
  obtain ⟨effect, he⟩ := exec_of_frameOf hi
  refine (he s).trans ?_
  rcases hs with hq | ⟨hst, ho⟩
  · exact frameEvent_sending hq
  · exact frameEvent_elsewhere (State.addressed_eq_false hst ho)

theorem cutOfResetResponseResets : CutOfResetResponseResets := by
  intro i h code data s r hi hf hr hl hst
  obtain ⟨effect, he⟩ := exec_of_frameOf hi
  exact (he s).trans (frameEvent_cuts_reset hf hr hl (State.addressed_iff.2 hst))

theorem rawCutOfResetResponseResets : RawCutOfResetResponseResets := by
  intro i lane header data s r hi hf hr hl hst
  refine (exec_of_rawRow hi).trans (congrArg Host.Outcome.next ?_)
  exact State.frameArrives_cuts_reset (s := begun s) hf hr hl (State.addressed_iff.2 hst)

/-- Settles O4: the arrival's two ways of not taking a frame, and its way of taking a reset instead. -/
theorem framesNotTakenAsCommands : Obligations.FramesNotTakenAsCommands :=
  ⟨framesNotTakenChangeNothing, cutOfResetResponseResets, rawCutOfResetResponseResets⟩

theorem resetFollowsItsResponse : ResetFollowsItsResponse := by
  intro h s ha
  refine ⟨execReset_shut ha, fun hopen => ?_⟩
  have speaks : (s.lanes.station == 0) = false := beq_eq_false_iff_ne.2 ha.speaks
  have valid := frameEvent_valid (effect := takeResetCommand) (code := 31) (data := []) ha.quiet (addressed_of_arrives ha)
    ha.settled ha.client (malformedForm_eq_false ha.client rfl (by decide) fun hb =>
      absurd (isBroadcast_iff.1 hb) ha.single)
  refine valid.trans (congrArg Host.Outcome.next ?_)
  unfold State.takeCommand
  rw [State.noteCommand_eq_noted _ rfl ha.single, not_isBroadcast ha.single]
  have open' : (noted s h 31 0).lanes.isShut h.lane = false := (noted_isShut _).trans hopen
  have silent : ((noted s h 31 0).lanes.isShut h.lane || (noted s h 31 0).lanes.station == 0) = false := by
    rw [open']
    exact speaks
  refine (if_neg Bool.false_ne_true).trans ((if_neg ?_).trans rfl)
  exact Bool.eq_false_iff.1 silent

theorem responseEnds : ResponseEnds := by
  intro s
  refine ⟨fun hn => ?_, fun r hr => ⟨fun hf => ?_, fun ht => execResponseEnd_reset hr ht⟩⟩
  · refine congrArg Host.Outcome.next ?_
    simp only [hn]
    rfl
  · obtain ⟨lane, words, reset⟩ := r
    cases hf
    refine congrArg Host.Outcome.next ?_
    simp only [hr]
    rfl

/-- Settles O6: RESET's answer with its flag, the end of a response by that flag, and the power-on reset. -/
theorem resetsAreTakenWhole : Obligations.ResetsAreTakenWhole :=
  ⟨resetFollowsItsResponse, responseEnds, fun straps s => ⟨s.takeReset straps, rfl, rfl, rfl⟩⟩

theorem damagedFrameSetsFrame : DamagedFrameSetsFrame := by
  intro lane header data check s hk
  refine ⟨fun hq => congrArg Host.Outcome.next ?_, fun hq => congrArg Host.Outcome.next ?_⟩
  · exact (if_neg (Bool.eq_false_iff.1 hq)).trans (if_pos hk)
  · exact if_pos hq

theorem otherStationsFrameIsIgnored : OtherStationsFrameIsIgnored := by
  intro lane header data s hs ho
  refine congrArg Host.Outcome.next ?_
  change (begun s).frameArrives lane header data (checkCode (header :: data)) = _
  unfold State.frameArrives
  split
  · rfl
  · rw [if_neg (by simp)]
    exact State.arrive_not_addressed (s := begun s) (State.addressed_eq_false hs ho)

theorem malformedFrameSetsMe : MalformedFrameSetsMe := by
  intro lane header data s hq hf hst hm
  refine congrArg Host.Outcome.next ?_
  change (begun s).frameArrives lane header data (checkCode (header :: data)) = _
  unfold State.frameArrives
  rw [if_neg (show ¬(begun s).sendingOn lane = true from Bool.eq_false_iff.1 hq), if_neg (by simp)]
  refine State.arrive_malformed (s := begun s) (h := headOf lane header) hq (State.addressed_iff.2 hst) hf
    (malformedForm_iff.2 ?_)
  exact hm.imp_right (Or.imp_right (Or.imp_right fun hb => ⟨hb.1, mayBroadcast_eq_false hb.2.1 hb.2.2⟩))

theorem malformedCommandSetsMe : MalformedCommandSetsMe := by
  intro i h code data s hi hq hf hst hm
  obtain ⟨effect, he⟩ := exec_of_frameOf hi
  refine (he s).trans (congrArg Host.Outcome.next ?_)
  refine State.arrive_malformed (s := begun s) hq (State.addressed_iff.2 hst) hf (malformedForm_iff.2 ?_)
  exact hm.imp_right fun hb => .inr (.inr ⟨hb.1, mayBroadcast_eq_false hb.2.1 hb.2.2⟩)

/-- Settles O7: a frame's arrival by its check word, its station and its form. -/
theorem rawFramesAreSortedOut : Obligations.RawFramesAreSortedOut :=
  ⟨damagedFrameSetsFrame, otherStationsFrameIsIgnored, malformedFrameSetsMe, malformedCommandSetsMe⟩

/-- Settles O8: a broadcast frame's event is its owner's effect, unanswered, by the sender and POSE's range checks. -/
theorem broadcastsAreTakenUnanswered : Obligations.BroadcastsAreTakenUnanswered := by
  unfold Obligations.BroadcastsAreTakenUnanswered
  intro h c x y pitch roll s hc hs hq hf
  refine ⟨?_, ?_⟩
  · refine (frameEvent_broadcast hc hs hq hf rfl rfl (by simp) rfl).trans (congrArg Host.Outcome.next ?_)
    cases c <;> rfl
  · refine (frameEvent_broadcast hc hs hq hf rfl rfl (by simp) rfl).trans (congrArg Host.Outcome.next ?_)
    exact takePose_state ..

/-- Settles O52: every cause of a reset ends in takeReset, whose blocks are read off. -/
theorem resetOfTheOtherBlocks : Obligations.ResetOfTheOtherBlocks := by
  unfold Obligations.ResetOfTheOtherBlocks
  refine ⟨fun s straps => ⟨s.takeReset straps, rfl⟩, fun s t ht => ?_⟩
  obtain ⟨straps, rfl⟩ := eq_takeReset_of_takesReset ht
  refine ⟨fun i => ⟨Vector.getElem_replicate i.isLt, Vector.getElem_replicate i.isLt⟩, rfl, rfl, PerLeg.get_const _,
    fun l => ?_, fun l => ⟨State.takeReset_leg .., PerLeg.get_const _ l⟩, rfl, rfl, rfl, rfl, rfl, rfl, rfl, rfl, rfl, rfl,
    rfl, rfl, rfl, rfl, rfl, rfl, fun n => State.takeReset_node .., rfl, rfl, rfl, rfl, rfl, rfl, rfl, rfl, rfl, ?_, ?_⟩
  · rw [State.takeReset_port]
    exact ⟨rfl, rfl, rfl, rfl, rfl, rfl, rfl, rfl, rfl, rfl, rfl, rfl, rfl⟩
  · rfl
  · rfl

end Sys2Proof.Proofs
end

section
/-! SUPPORT. The words of frames and answers as their fields' numbers, each at its place (R185, 11.1 to 11.4), and the words
that name a leg, a parameter or a class. -/

namespace Sys2Proof.Machine

open Claims

variable {s : State} {w : Word} {l : Leg}

/-- A word whose number is the sum of its fields' numbers at their places is the word with those fields. -/
theorem eq_fields {fs : List (Nat × Nat)} (h : w.toNat = (fs.map fun f => f.2 * 2 ^ f.1).sum) : w = fields fs := by
  refine BitVec.eq_of_toNat_eq ?_
  rw [fields, BitVec.toNat_ofNat, ← h, Nat.mod_eq_of_lt w.isLt]

/-- A narrower field in bits from 0 upward. -/
theorem setWidth_eq_fields {n : Nat} (x : BitVec n) (hn : n ≤ 16) : x.setWidth 16 = fields [(0, x.toNat)] := by
  refine eq_fields ?_
  have : x.toNat < 2 ^ 16 := x.isLt.trans_le (Nat.pow_le_pow_right (by decide) hn)
  simpa using this

/-! ### The words of frames -/

theorem headerWord_eq_fields (h : FrameHead) (code : BitVec 6) (count : BitVec 4) :
    headerWord h code count = fields [(12, h.station.toNat), (10, h.client.toNat), (4, code.toNat), (0, count.toNat)] := by
  refine eq_fields ?_
  simp only [headerWord, toNat_append_sum, List.map, List.sum_cons, List.sum_nil]
  omega

theorem Result.code_toNat (r : Result) : r.code.toNat =
    [Result.done, .busy, .notPermitted, .noRecord, .wrongState, .inUse, .full, .empty, .outOfRange, .notAdmissible,
      .tooClose, .checkFailed, .dequeued, .notLoaded].idxOf r := by
  cases r <;> rfl

theorem resultWord_eq_fields (code : BitVec 6) (r : Result) :
    resultWord code r = fields [(8, code.toNat), (0, r.code.toNat)] := by
  refine eq_fields ?_
  simp only [resultWord, toNat_append_sum, BitVec.toNat_ofNat, List.map, List.sum_cons, List.sum_nil]
  omega

theorem State.shutWord_eq_fields :
    s.shutWord = fields [(0, s.lanes.shutA.toNat), (1, s.lanes.shutB.toNat)] := by
  refine eq_fields ?_
  simp only [State.shutWord, toNat_append_sum, bit_toNat, BitVec.toNat_ofNat, List.map, List.sum_cons, List.sum_nil]
  omega

theorem State.statusWord_eq_fields : s.statusWord = fields
    [(12, s.lanes.station.toNat), (11, s.lanes.me.toNat), (10, s.attn.line.toNat), (9, s.store.walk.isSome.toNat),
      (8, (s.seq.gait == .halted).toNat), (7, s.legFault.toNat), (6, s.lanes.broadcast.toNat)] := by
  refine eq_fields ?_
  simp only [State.statusWord, State.rebasing, toNat_append_sum, bit_toNat, BitVec.toNat_ofNat, List.map,
    List.sum_cons, List.sum_nil]
  omega

theorem State.legFault_iff : s.legFault = true ↔ ∃ l, (s.leg l).phase = .lost ∨ (s.port l).jointFault = true := by
  simp only [State.legFault, List.any_eq_true, Bool.or_eq_true, beq_iff_eq]
  exact ⟨fun ⟨l, _, h⟩ => ⟨l, h⟩, fun ⟨l, h⟩ => ⟨l, Leg.mem_all l, h⟩⟩

/-! ### The words of answers -/

theorem legBits_toNat (l : Leg) : (legBits l).toNat = l.number := by cases l <;> rfl

theorem Handle.word_eq_fields (i : RecordIndex) (gen : BitVec 4) :
    (⟨i, gen⟩ : Handle).word = fields [(4, i.val), (0, gen.toNat)] := by
  refine eq_fields ?_
  simp only [Handle.word, toNat_append_sum, BitVec.toNat_ofNat, List.map, List.sum_cons, List.sum_nil]
  omega

theorem slipWord_eq_fields (slips : BitVec 3) (gen : BitVec 4) :
    slipWord slips gen = fields [(8, slips.toNat), (0, gen.toNat)] := by
  refine eq_fields ?_
  simp only [slipWord, toNat_append_sum, BitVec.toNat_ofNat, List.map, List.sum_cons, List.sum_nil]
  omega

theorem classWordOf_eq_fields (c : StoredContent) :
    classWordOf c = fields [(12, c.surfaceClass.toNat), (8, c.slope.toNat), (0, c.confidence.toNat)] := by
  refine eq_fields ?_
  simp only [classWordOf, toNat_append_sum, BitVec.toNat_ofNat, List.map, List.sum_cons, List.sum_nil]
  omega

theorem recordStateNumber_toNat (st : RecordState) : (recordStateNumber st).toNat = stateNumberOf st := by
  cases st <;> rfl

theorem clientBits_toNat (c : Client) : (clientBits c).toNat = clientNumberOf c := by cases c <;> rfl

theorem ownerField_toNat (st : RecordState) : (ownerField st).toNat = ownerNumberOf st := by
  cases st with
  | candidate | suspect => rfl
  | reserved o | target o | loaded o => cases o <;> rfl

theorem isFailed_eq_failedOf (st : RecordState) : st.isFailed = failedOf st := by cases st <;> rfl

theorem recordStateWord_eq_fields (r : FootRecord) :
    recordStateWord r = fields [(8, stateNumberOf r.state), (6, clientNumberOf r.origin), (3, ownerNumberOf r.state),
      (0, (failedOf r.state).toNat)] := by
  refine eq_fields ?_
  simp only [recordStateWord, toNat_append_sum, recordStateNumber_toNat, clientBits_toNat, ownerField_toNat,
    isFailed_eq_failedOf, bit_toNat, BitVec.toNat_ofNat, List.map, List.sum_cons, List.sum_nil]
  omega

theorem phaseNumber_toNat (p : Phase) : (phaseNumber p).toNat =
    [Phase.unseen, .idle, .stance, .unloading, .swing, .seeking, .descent, .touchdown, .lost].idxOf p := by
  cases p <;> rfl

theorem lossNumber_toNat (r : LossReason) : (lossNumber r).toNat = lossNumberOf r := by cases r <;> rfl

theorem Timer.isRunning_toNat (v : Timer) : v.isRunning.toNat = if v = .stopped then 0 else 1 := by
  cases v <;> simp [Timer.isRunning]

theorem gaitNumber_toNat (g : Gait) :
    (gaitNumber g).toNat = [Gait.off, .standing, .walking, .holding, .stopping, .halted].idxOf g := by
  cases g <;> rfl

theorem haltReasonNumber_toNat (c : Option HaltCause) : (haltReasonNumber c).toNat = haltNumberOf c := by
  cases c with
  | none => rfl
  | some c => cases c <;> rfl

theorem patternBit_toNat (p : Pattern) : (patternBit p).toNat = if p = .backward then 1 else 0 := by cases p <;> rfl

theorem liftField_toNat (l : Option Leg) : (liftField l).toNat = l.isSome.toNat * 8 + legOr l 0 := by
  cases l with
  | none => rfl
  | some l => cases l <;> rfl

theorem reasonsWord_eq (r : HoldReasons) : reasonsWord r = reasonWord r := by
  refine eq_fields ?_
  simp only [reasonsWord, toNat_append_sum, bit_toNat, BitVec.toNat_ofNat, List.map, List.sum_cons, List.sum_nil]
  omega

theorem classNumber_toNat (c : MarginClass) : (classNumber c).toNat = classNumberOf c := by cases c <;> rfl

theorem freshnessNumber_toNat (f : Freshness) :
    (freshnessNumber f).toNat = [Freshness.none, .fresh, .stale].idxOf f := by
  cases f <;> rfl

theorem liftLegField_toNat (l : Option Leg) : (liftLegField l).toNat = legOr l 7 := by
  cases l with
  | none => rfl
  | some l => cases l <;> rfl

theorem tripStateNumber_toNat (t : TripState) :
    (tripStateNumber t).toNat = [TripState.disarmed, .armed, .primed, .fired].idxOf t := by
  cases t <;> rfl

theorem Trip.holdsOrHalts_toNat (t : Trip) :
    t.holdsOrHalts.toNat = if t.state = .fired ∧ (t.action = .hold ∨ t.action = .halt) then 1 else 0 := by
  have : t.holdsOrHalts = true ↔ t.state = .fired ∧ (t.action = .hold ∨ t.action = .halt) := by simp [Trip.holdsOrHalts]
  simp only [← this]
  cases t.holdsOrHalts <;> rfl

theorem legEventNumber_toNat (k : LegEventKind) : (legEventNumber k).toNat =
    [LegEventKind.lost, .returned, .unexpectedUnload, .lateContact].idxOf k := by
  cases k <;> rfl

theorem retireNumber_toNat (r : RetireReason) : (retireNumber r).toNat =
    [RetireReason.client, .expired, .void, .check, .outOfFrame].idxOf r := by
  cases r <;> rfl

/-- The detail words of each kind of detail. -/
theorem detailWords_eq (d : Detail) : d.word1 = (detailPair d).1 ∧ d.word2 = (detailPair d).2 := by
  cases d with
  | client => exact ⟨rfl, rfl⟩
  | tip m =>
    refine ⟨eq_fields ?_, rfl⟩
    simp only [Detail.word1, toNat_append_sum, classNumber_toNat, BitVec.toNat_ofNat, List.map, List.sum_cons,
      List.sum_nil]
    omega
  | slip l inTouchdown h | miss l inTouchdown h =>
    refine ⟨eq_fields ?_, rfl⟩
    simp only [Detail.word1, toNat_append_sum, legBits_toNat, bit_toNat, BitVec.toNat_ofNat, List.map, List.sum_cons,
      List.sum_nil]
    omega
  | leg l kind loss =>
    refine ⟨eq_fields ?_, rfl⟩
    simp only [Detail.word1, toNat_append_sum, legBits_toNat, lossNumber_toNat, legEventNumber_toNat,
      BitVec.toNat_ofNat, List.map, List.sum_cons, List.sum_nil]
    omega
  | gaitHolding r => exact ⟨rfl, reasonsWord_eq r⟩
  | gaitHalted c => cases c <;> exact ⟨rfl, rfl⟩
  | gaitStanding => exact ⟨rfl, rfl⟩
  | record h reason => cases reason <;> exact ⟨rfl, rfl⟩
  | trip n =>
    refine ⟨eq_fields ?_, rfl⟩
    simp only [Detail.word1, BitVec.toNat_ofNat, List.map, List.sum_cons, List.sum_nil]
    omega
  | done retired =>
    refine ⟨?_, rfl⟩
    simp [Detail.word1, detailPair, fields]

/-! ### The words that name a leg, a parameter or a class -/

theorem legOf_of_legWord (h : LegWord w l) : legOf w = some l := by
  unfold legOf
  rw [h]
  cases l <;> rfl

theorem legOf_eq_none (h : 3 < w.toNat) : legOf w = none := by
  unfold legOf
  split
  case h_5 => rfl
  all_goals omega

theorem indexOf_eq_none {bound m : Nat} (h : bound ≤ m) : indexOf bound m = none := dif_neg (Nat.not_lt.2 h)

/-! ### LANE -/

theorem laneOf_eq_none (h : 1 < w.toNat) : laneOf w = none := by
  unfold laneOf
  split
  case h_3 => rfl
  all_goals omega

/-- LANE from SUPERVISOR with a lane or an operation outside its range (R182). -/
theorem takeLane_outOfRange {arrival : Lane} {lane operation : Word} (h : 1 < lane.toNat ∨ 1 < operation.toNat) :
    takeLane arrival lane operation .supervisor s = refuse s .outOfRange := by
  refine (permitted_of_eq_true rfl).trans ?_
  rcases h with h | h
  · rw [laneOf_eq_none h]
  · rw [indexOf_eq_none (bound := 2) h]
    split <;> simp_all

/-- LANE from SUPERVISOR with both words in range (R182). -/
theorem takeLane_inRange {arrival : Lane} {lane operation : Word} {l : Lane} {o : Fin 2} (hl : laneOf lane = some l)
    (ho : operation.toNat = o.val) :
    takeLane arrival lane operation .supervisor s =
      if l = arrival then refuse s .wrongState
      else if o.val = 0 ∧ s.lanes.isShut arrival then refuse s .wrongState
      else doneWith (withShut s l (o.val == 0)) [(withShut s l (o.val == 0)).shutWord] := by
  have set : s.setLanes (s.lanes.setShut l (o.val == 0)) = withShut s l (o.val == 0) := by cases l <;> rfl
  refine (permitted_of_eq_true rfl).trans ?_
  simp only [hl, indexOf_eq_some o ho, set]

/-- A frame of one of the two reading commands is answered, and nothing is noted of it (R181). -/
theorem frameEvent_reading {h : FrameHead} {c : Client} {code : BitVec 6} {effect : Client → State → Effect} {r : Result}
    {words : List Word} (ha : Arrives s h c) (hr : isReading code = true) (hn : commandCount code = some 0)
    (he : effect c (watched s) = (⟨r, words, false⟩, watched s)) :
    frameEvent s h code [] effect = .next (answered (watched s) h code r words) := by
  have form : malformedForm h code (BitVec.ofNat 4 [].length) [] = false :=
    malformedForm_eq_false ha.client hn (by simp) fun hb => absurd (isBroadcast_iff.1 hb) ha.single
  rw [frameEvent_valid ha.quiet (addressed_of_arrives ha) ha.settled ha.client form]
  change Host.Outcome.next (State.takeCommand (watched s) h code _ _) = _
  have noted : (watched s).noteCommand h code (BitVec.ofNat 4 ([] : List Word).length) = watched s := if_pos hr
  rw [State.takeCommand, noted, he, if_neg (by simp [not_isBroadcast ha.single]), State.respond_eq_answered]

/-- A transmitter's shut word does not show the header noted. -/
theorem withShut_noted_shutWord (h : FrameHead) (code : BitVec 6) (count : BitVec 4) (s : State) (l : Lane) (b : Bool) :
    (withShut (noted s h code count) l b).shutWord = (withShut s l b).shutWord := by
  cases l <;> rfl

end Sys2Proof.Machine
end

section
namespace Sys2Proof.Proofs

open Machine Claims

theorem recordWordsHoldTheirFields : RecordWordsHoldTheirFields := by
  intro i gen r
  dsimp only
  refine ⟨rfl, Handle.word_eq_fields i gen, Handle.word_eq_fields i gen, ?_, ?_⟩
  · rw [coveredWords, classWordOf_eq_fields, slipWord_eq_fields, setWidth_eq_fields _ (by decide)]
  · rw [recordWords, Handle.word_eq_fields, recordStateWord_eq_fields, classWordOf_eq_fields, slipWord_eq_fields,
      setWidth_eq_fields _ (by decide), setWidth_eq_fields _ (by decide), setWidth_eq_fields _ (by decide)]

theorem legWordsHoldTheirFields : LegWordsHoldTheirFields := by
  intro v p
  dsimp only
  rw [legWords, setWidth_eq_fields _ (by decide), setWidth_eq_fields _ (by decide)]
  congr 1
  · refine eq_fields ?_
    simp only [toNat_append_sum, phaseNumber_toNat, lossNumber_toNat, Timer.isRunning_toNat, bit_toNat,
      BitVec.toNat_ofNat, List.map, List.sum_cons, List.sum_nil]
    omega
  · congr 3
    refine eq_fields ?_
    simp only [toNat_append_sum, bit_toNat, BitVec.toNat_ofNat, List.map, List.sum_cons, List.sum_nil]
    omega

theorem gaitReportHoldsItsFields : GaitReportHoldsItsFields := by
  intro q
  dsimp only
  rw [gaitReport, setWidth_eq_fields _ (by decide), reasonsWord_eq]
  congr 1
  refine eq_fields ?_
  simp only [toNat_append_sum, gaitNumber_toNat, haltReasonNumber_toNat, patternBit_toNat, legBits_toNat,
    liftField_toNat, BitVec.toNat_ofNat, List.map, List.sum_cons, List.sum_nil]
  omega

theorem marginWordsHoldTheirFields : MarginWordsHoldTheirFields := by
  intro b
  dsimp only
  unfold marginWords
  simp only [ne_eq, ite_not]
  congr 2
  · refine eq_fields ?_
    simp only [toNat_append_sum, liftLegField_toNat, classNumber_toNat, legSetBits, bit_toNat, BitVec.toNat_ofNat,
      List.map, List.sum_cons, List.sum_nil]
    omega
  · congr 6
    refine eq_fields ?_
    simp only [toNat_append_sum, freshnessNumber_toNat, bit_toNat, BitVec.toNat_ofNat, List.map, List.sum_cons,
      List.sum_nil]
    omega

theorem tripWordsHoldTheirFields : TripWordsHoldTheirFields := by
  intro u
  have four (place : Nat → Nat) (v : Fin 4 → Nat) : (List.finRange 4).map (fun n => (place n.val, v n)) =
      [(place 0, v 0), (place 1, v 1), (place 2, v 2), (place 3, v 3)] := rfl
  have eight (place : Nat → Nat) (v : Fin 8 → Nat) : (List.finRange 8).map (fun n => (place n.val, v n)) =
      [(place 0, v 0), (place 1, v 1), (place 2, v 2), (place 3, v 3), (place 4, v 4), (place 5, v 5), (place 6, v 6),
        (place 7, v 7)] := rfl
  dsimp only
  rw [tripWords, four (2 * ·), four (·), eight (·), eight (8 + ·)]
  refine List.cons_eq_cons.2 ⟨eq_fields ?_, List.cons_eq_cons.2 ⟨eq_fields ?_, List.cons_eq_cons.2 ⟨eq_fields ?_, rfl⟩⟩⟩
  · simp only [toNat_append_sum, tripStateNumber_toNat, BitVec.toNat_ofNat]
    simp only [List.map, List.sum_cons, List.sum_nil, Nat.reduceMul, Nat.reducePow]
    omega
  · simp only [eightBits, toNat_append_sum, bit_toNat]
    simp only [List.map, List.cons_append, List.nil_append, List.sum_cons, List.sum_nil, Nat.reduceAdd, Nat.reducePow]
    omega
  · simp only [toNat_append_sum, bit_toNat, Trip.holdsOrHalts_toNat, BitVec.toNat_ofNat]
    simp only [List.map, List.sum_cons, List.sum_nil, Nat.reducePow]
    omega

theorem conditionWordHoldsItsFields : ConditionWordHoldsItsFields := by
  intro s
  refine eq_fields ?_
  simp only [State.conditionWord, toNat_append_sum, bit_toNat, BitVec.toNat_ofNat, List.map, List.sum_cons,
    List.sum_nil]
  omega

theorem nodeWordsHoldTheirFields : NodeWordsHoldTheirFields := by
  intro n v
  have details : detailWords v.pending = match v.pending with
      | some d => [(detailPair d).1, (detailPair d).2, 0]
      | none => [0, 0, 0] := by
    cases v.pending with
    | none => rfl
    | some d => rw [detailWords, (detailWords_eq d).1, (detailWords_eq d).2]
  dsimp only
  rw [attentionWords, vectorWords, details]
  refine ⟨?_, ?_⟩
  all_goals
    congr 1
    refine eq_fields ?_
    simp only [toNat_append_sum, bit_toNat, BitVec.toNat_ofNat, List.map, List.sum_cons, List.sum_nil]
    omega

theorem readingCommandsAnswer : ReadingCommandsAnswer := by
  intro h c s w ha
  refine ⟨fun l hl => ⟨?_, ?_⟩, fun hw => ⟨?_, ?_⟩, fun hb => ?_, ?_, ?_, fun n hn => ?_, fun hw => ?_, fun n hn => ?_,
    fun hw => ?_, fun hc => ⟨?_, fun hw => ?_⟩⟩
  · refine frameEvent_answered ha rfl rfl (by simp) ?_
    simp only [takeQueue, permitted, anyClient, legOf_of_legWord hl]
    rfl
  · refine frameEvent_answered ha rfl rfl (by simp) ?_
    simp only [takeLegstate, permitted, anyClient, legOf_of_legWord hl]
    rfl
  · refine frameEvent_answered ha rfl rfl (by simp) ?_
    simp only [takeQueue, permitted, anyClient, legOf_eq_none hw]
    rfl
  · refine frameEvent_answered ha rfl rfl (by simp) ?_
    simp only [takeLegstate, permitted, anyClient, legOf_eq_none hw]
    rfl
  · refine frameEvent_answered ha rfl rfl (by simp) (permittedIdle_idle rfl hb)
  · exact frameEvent_answered ha rfl rfl (by simp) rfl
  · exact frameEvent_answered ha rfl rfl (by simp) rfl
  · refine frameEvent_answered ha rfl rfl (by simp) ?_
    simp only [takeGetparam, permitted, anyClient, indexOf_eq_some n hn]
    rfl
  · refine frameEvent_answered ha rfl rfl (by simp) ?_
    simp only [takeGetparam, permitted, anyClient, indexOf_eq_none (bound := 18) hw]
    rfl
  · refine frameEvent_answered ha rfl rfl (by simp) ?_
    simp only [takeGetfriction, permitted, anyClient, indexOf_eq_some n hn]
    rfl
  · refine frameEvent_answered ha rfl rfl (by simp) ?_
    simp only [takeGetfriction, permitted, anyClient, indexOf_eq_none (bound := 8) hw]
    rfl
  · exact gaitFrame_answered ha hc rfl
  · refine frameEvent_answered (t := noted s h 16 1) ha rfl rfl (by simp) ((gaitPermitted_of_ne hc _).trans ?_)
    unfold gaitEffect
    split
    case h_9 => rfl
    all_goals omega

/-- Settles O20: each reading command's answer, and each answer word by the number of its fields. -/
theorem readingCommandsOnlyRead : Obligations.ReadingCommandsOnlyRead :=
  ⟨readingCommandsAnswer, recordWordsHoldTheirFields, legWordsHoldTheirFields, gaitReportHoldsItsFields,
    marginWordsHoldTheirFields, tripWordsHoldTheirFields, conditionWordHoldsItsFields, nodeWordsHoldTheirFields⟩

/-- Settles O21: an order is sent by the state of its link. -/
theorem ordersAreNumberedAndPend : Obligations.OrdersAreNumberedAndPend := by
  unfold Obligations.OrdersAreNumberedAndPend
  intro s l kind dx dy z
  exact ⟨fun hd => if_neg (by simp [hd]), fun hu => if_pos hu⟩

theorem frameWordsHoldTheirFields : FrameWordsHoldTheirFields := by
  intro h code count r s
  refine ⟨headerWord_eq_fields h code count, ?_, s.shutWord_eq_fields⟩
  rw [resultWord_eq_fields, Result.code_toNat]

theorem statusWordShowsTheMachine : StatusWordShowsTheMachine := by
  intro s
  refine ⟨s.legFault, State.legFault_iff, ?_⟩
  have halted : (s.seq.gait == .halted).toNat = if s.seq.gait = .halted then 1 else 0 := by
    cases s.seq.gait <;> rfl
  rw [State.statusWord_eq_fields, halted]

theorem statusAndLastcmdOnlyRead : StatusAndLastcmdOnlyRead := by
  intro h c s ha
  exact ⟨frameEvent_reading ha rfl rfl rfl, frameEvent_reading ha rfl rfl rfl⟩

theorem laneShutsAndOpensTheOther : LaneShutsAndOpensTheOther := by
  intro h s l lane operation ha
  refine ⟨fun hw => ?_, fun hw => ?_, fun hl => ⟨fun he => ⟨?_, ?_⟩, fun hne => ⟨?_, fun hs => ?_, fun hs => ?_⟩⟩⟩
  · refine frameEvent_answered ha rfl rfl (by simp) ?_
    exact takeLane_outOfRange hw
  · refine frameEvent_answered ha rfl rfl (by simp) ?_
    exact takeLane_outOfRange (.inl hw)
  · refine frameEvent_answered ha rfl rfl (by simp) ?_
    rw [takeLane_inRange (operation := 0) (o := 0) hl rfl, if_pos he]
    rfl
  · refine frameEvent_answered ha rfl rfl (by simp) ?_
    rw [takeLane_inRange (operation := 1) (o := 1) hl rfl, if_pos he]
    rfl
  · refine frameEvent_answered ha rfl rfl (by simp) ?_
    rw [takeLane_inRange (operation := 1) (o := 1) hl rfl, if_neg hne, if_neg (by simp)]
    exact congrArg (doneWith _ [·]) (withShut_noted_shutWord h _ _ s l false)
  · refine frameEvent_answered ha rfl rfl (by simp) ?_
    rw [takeLane_inRange (operation := 0) (o := 0) hl rfl, if_neg hne, if_pos ⟨rfl, (noted_isShut _).trans hs⟩]
    rfl
  · refine frameEvent_answered ha rfl rfl (by simp) ?_
    rw [takeLane_inRange (operation := 0) (o := 0) hl rfl, if_neg hne, if_neg (by simp [noted_isShut, hs])]
    exact congrArg (doneWith _ [·]) (withShut_noted_shutWord h _ _ s l true)

/-- Settles O5: the lane interface's reading commands, LANE by its checks, and the words' fields. -/
theorem laneInterfaceCommands : Obligations.LaneInterfaceCommands :=
  ⟨statusAndLastcmdOnlyRead, laneShutsAndOpensTheOther, statusWordShowsTheMachine, frameWordsHoldTheirFields⟩

end Sys2Proof.Proofs
end

section
/-! SUPPORT. The store's commands by their checks: the record that a handle word names, the words out of range, the content
that creation writes, and what a record's changes do to its fields (chapters 1 and 2). -/

namespace Sys2Proof.Machine

open Claims

variable {s : State} {w : Word} {i : RecordIndex} {r : FootRecord}

/-! ### Operand words -/

theorem State.named_of_names (h : Names s w i r) : s.named w = some (i, r) := by
  obtain ⟨hindex, hgen, hslot⟩ := h
  have hi : (⟨handleIndex w, hindex ▸ i.isLt⟩ : RecordIndex) = i := Fin.ext hindex
  rw [State.named, dif_pos (hindex ▸ i.isLt)]
  simp only [hi, hgen, hslot, if_true, Option.map_some]

theorem State.named_of_none (h : NamesNone s w) : s.named w = none := by
  refine Option.eq_none_iff_forall_ne_some.2 fun ⟨i, r⟩ hn => h i r ?_
  unfold State.named at hn
  by_cases hw : handleIndex w < 40
  · simp only [dif_pos hw] at hn
    by_cases hg : s.gen ⟨handleIndex w, hw⟩ = handleGen w
    · rw [if_pos hg] at hn
      obtain ⟨r', hs, hp⟩ := Option.map_eq_some_iff.1 hn
      obtain ⟨rfl, rfl⟩ := Prod.mk.inj hp
      exact ⟨rfl, hg.symm, hs⟩
    · rw [if_neg hg] at hn
      cases hn
  · rw [dif_neg hw] at hn
    cases hn

theorem isLowest_iff : isLowest w = true ↔ Lowest w := by simp [isLowest, Lowest]

theorem classWordBad_iff : classWordBad w = true ↔ BadClassWord w := by
  simp only [classWordBad, Bool.or_eq_true, decide_eq_true_eq, or_assoc]
  rfl

/-- A stored class is the low three bits of its field. -/
theorem class_of_field : BitVec.ofNat 3 (classField w) = w.extractLsb' 12 3 := by
  refine BitVec.eq_of_toNat_eq ?_
  simp only [classField, BitVec.extractLsb'_toNat, BitVec.toNat_ofNat, Nat.shiftRight_eq_div_pow]
  omega

theorem slope_of_field : BitVec.ofNat 4 (slopeField w) = w.extractLsb' 8 4 :=
  BitVec.ofNat_toNat _ _ |>.trans (BitVec.setWidth_eq _)

theorem confidence_of_field : BitVec.ofNat 4 (confidenceField w) = w.extractLsb' 0 4 := by
  refine BitVec.eq_of_toNat_eq ?_
  simp only [confidenceField, BitVec.extractLsb'_toNat, BitVec.toNat_ofNat, Nat.shiftRight_eq_div_pow]
  omega

/-- The content that creation writes (R7). -/
theorem State.newContent_eq (x y z : Word) :
    s.newContent i x y z w = freshContent x y z w s.store.friction[(w.extractLsb' 12 3).toFin].coefficient (s.gen i) := by
  simp only [State.newContent, freshContent, class_of_field, slope_of_field, confidence_of_field, State.frictionOf]

/-! ### Commands of a listed client with no walk in flight -/

theorem permittedIdle_noted {allowed : Client → Bool} {h : FrameHead} {c : Client} {code : BitVec 6} {n : BitVec 4}
    {e : Effect} (hc : allowed c = true) (hb : s.rebasing = false) :
    permittedIdle allowed c (noted s h code n) e = e := permittedIdle_idle hc hb

theorem named_noted {h : FrameHead} {code : BitVec 6} {n : BitVec 4} : (noted s h code n).named w = s.named w := rfl

/-! ### What a record's changes do to its fields -/

theorem charged_slips (n : BitVec 3) : (if n = 7 then 7 else n + 1).toNat = min 7 (n.toNat + 1) := by
  revert n
  decide

theorem charged_friction (f : BitVec 9) (d : BitVec 7) :
    (BitVec.ofNat 9 (f.toNat - d.toNat)).toNat = f.toNat - d.toNat := by
  rw [BitVec.toNat_ofNat]
  omega

end Sys2Proof.Machine
end

section
namespace Sys2Proof.Proofs

open Machine Claims

theorem freeingForgetsTheRecord : FreeingForgetsTheRecord := by
  intro s i reason
  refine ⟨fun hn => by rw [State.freeRecord, hn], fun r hr => ?_⟩
  dsimp only
  simp only [State.freeRecord, hr]
  exact ⟨rfl, fun hne => if_neg hne⟩

theorem transitionsSetTheTagAlone : TransitionsSetTheTagAlone := by
  intro r l stride
  exact ⟨fun h => if_pos h, fun h => if_pos h, fun h => if_pos h, fun h => if_pos h, fun h => if_pos h,
    fun h => if_pos h, fun h => if_pos h, fun h => if_pos h, fun f h => by rw [FootRecord.suspectLoaded, h]; rfl⟩

theorem slipsAndVacatesMarkTheRecord : SlipsAndVacatesMarkTheRecord := by
  intro s i r l hr
  refine ⟨⟨rfl, charged_slips _, charged_friction _ _, rfl, rfl⟩, fun hst => ?_, fun hst hz => ?_, fun hst hz => ?_⟩
  · rw [State.vacate, hr]
    simp only [hst]
  · rw [State.vacate, hr]
    simp only [hst, if_pos hz]
    rfl
  · rw [State.vacate, hr]
    simp only [hst, if_neg hz, FootRecord.suspectLoaded]
    rfl

/-- Settles O9: each change of a record, by what it does to each field. -/
theorem recordsChangeByTheRules : Obligations.RecordsChangeByTheRules :=
  ⟨freeingForgetsTheRecord, transitionsSetTheTagAlone, slipsAndVacatesMarkTheRecord⟩

theorem checkFailureByState : CheckFailureByState := by
  intro s i r o hr
  dsimp only
  refine ⟨fun h => ?_, fun h => ?_, fun h => ?_, fun h hp => ?_, fun h hp => ?_, fun h => ?_, fun h => ?_⟩
  · simp only [State.failRecord, h]; rfl
  · simp only [State.failRecord, h]; rfl
  · simp only [State.failRecord, h]; rfl
  · simp only [State.failRecord, h, State.failTarget, hp]
    rfl
  · rcases hp with hp | hp | hp
    all_goals
      simp only [State.failRecord, h, State.failTarget, hp]
      rfl
  · have marked : ({ s with attn := { s.attn with checkFlag := true } } : State).modRecord i FootRecord.markFailed =
        ({ s with attn := { s.attn with checkFlag := true } } : State).setSlot i (some { r with state := .loaded o true }) := by
      simp only [State.modRecord, State.slot] at hr ⊢
      simp only [hr, FootRecord.markFailed, h]
    simp only [State.failRecord, h]
    rw [← marked]
    rfl
  · simp only [State.failRecord, h]

theorem queryReadsOrFailsTheRecord : QueryReadsOrFailsTheRecord := by
  intro h c s handle ha hb
  refine ⟨fun hn => ?_, fun i r hn => ⟨fun ⟨o, hf⟩ => ?_, fun hf => ?_⟩⟩
  · refine frameEvent_answered ha rfl rfl (by simp) ?_
    rw [takeQuery, permittedIdle_noted rfl hb, named_noted, State.named_of_none hn]
    rfl
  · refine frameEvent_answered ha rfl rfl (by simp) ?_
    rw [takeQuery, permittedIdle_noted rfl hb, named_noted, State.named_of_names hn]
    exact if_pos (by rw [hf]; rfl)
  · have unflagged : r.state.isFailed = false := by
      cases hst : r.state with
      | candidate | reserved _ | target _ | suspect => rfl
      | loaded o f =>
        cases f with
        | false => rfl
        | true => exact absurd hst (hf o)
    refine ⟨fun hv => ?_, fun hv => ?_⟩
    · refine frameEvent_answered ha rfl rfl (by simp) ?_
      rw [takeQuery, permittedIdle_noted rfl hb, named_noted, State.named_of_names hn]
      simp only [unflagged]
      exact if_pos (beq_iff_eq.2 hv)
    · refine frameEvent_answered ha rfl rfl (by simp) ?_
      rw [takeQuery, permittedIdle_noted rfl hb, named_noted, State.named_of_names hn]
      simp only [unflagged]
      exact if_neg (fun hc => hv (beq_iff_eq.1 hc))

/-- Settles O12: QUERY's answers, and the outcome of a check failure by the record's state. -/
theorem queryAndCheckFailures : Obligations.QueryAndCheckFailures := ⟨checkFailureByState, queryReadsOrFailsTheRecord⟩

end Sys2Proof.Proofs
end

section
/-! SUPPORT. The store's passes over all records: the lowest free index, what every slot satisfies, the positions that stay
in the frame (R26, R40, R51). -/

namespace Sys2Proof.Machine

open Claims

variable {s : State} {w : Word} {i : RecordIndex} {r : FootRecord} {l : Leg}

theorem State.lowestFree_eq_none (hfull : ∀ i, s.slot i ≠ none) : s.lowestFree = none := by
  refine List.find?_eq_none.2 fun i _ => ?_
  simpa using hfull i

theorem State.lowestFree_eq_some (hfree : s.slot i = none) (hleast : ∀ j, j < i → s.slot j ≠ none) :
    s.lowestFree = some i := by
  refine List.find?_eq_some_iff_getElem.2 ⟨by simp [hfree], i.val, by simp [allIndexes], by simp [allIndexes], ?_⟩
  intro j hj
  have taken := hleast ⟨j, hj.trans i.isLt⟩ hj
  simpa [allIndexes, Option.isSome_iff_ne_none] using taken

theorem State.mem_slots_iff {x : Option FootRecord} : x ∈ s.store.slots.toList ↔ ∃ i, s.slot i = x := by
  rw [Vector.mem_toList_iff, Vector.mem_iff_getElem]
  exact ⟨fun ⟨i, hi, hx⟩ => ⟨⟨i, hi⟩, hx⟩, fun ⟨i, hx⟩ => ⟨i.val, i.isLt, hx⟩⟩

theorem State.anyInFlight_iff : s.anyInFlight = true ↔ ∃ l, (s.leg l).phase.inFlight = true := by
  simp only [State.anyInFlight, List.any_eq_true]
  exact ⟨fun ⟨l, _, h⟩ => ⟨l, h⟩, fun ⟨l, h⟩ => ⟨l, Leg.mem_all l, h⟩⟩

/-- The position shifted by an offset stays within its range on each axis (R40, R43). -/
def StaysInFrame (c : StoredContent) (dx dy dz : Word) : Prop :=
  (-32767 ≤ c.x.toInt + dx.toInt ∧ c.x.toInt + dx.toInt ≤ 32767)
    ∧ (-32767 ≤ c.y.toInt + dy.toInt ∧ c.y.toInt + dy.toInt ≤ 32767)
    ∧ -32767 ≤ c.z.toInt + dz.toInt ∧ c.z.toInt + dz.toInt ≤ 32767

theorem inFrame_iff {v : Int} : inFrame v = true ↔ -32767 ≤ v ∧ v ≤ 32767 := by simp [inFrame]

theorem shiftsInFrame_iff {c : StoredContent} {dx dy dz : Word} :
    shiftsInFrame c dx dy dz = true ↔ StaysInFrame c dx dy dz := by
  simp only [shiftsInFrame, StaysInFrame, Bool.and_eq_true, inFrame_iff, and_assoc]

theorem RecordState.isHeld_iff {st : RecordState} :
    st.isHeld = true ↔ (∃ o, st = .reserved o) ∨ (∃ o, st = .target o) ∨ ∃ o f, st = .loaded o f := by
  cases st <;> simp [RecordState.isHeld]

theorem RecordState.owner_eq_some_iff {st : RecordState} {o : Leg} :
    st.owner = some o ↔ st = .reserved o ∨ st = .target o ∨ ∃ f, st = .loaded o f := by
  cases st <;> simp [RecordState.owner]

theorem State.preCheck_iff {dx dy dz : Word} : s.preCheck dx dy dz = true ↔
    ∀ i r, s.slot i = some r → r.state.isHeld = true → shiftsInFrame r.content dx dy dz = true := by
  simp only [State.preCheck, List.all_eq_true]
  constructor
  · intro h i r hr hheld
    simpa [hheld] using h (some r) (State.mem_slots_iff.2 ⟨i, hr⟩)
  · intro h slot hslot
    obtain ⟨i, hi⟩ := State.mem_slots_iff.1 hslot
    cases slot with
    | none => rfl
    | some r =>
      cases hheld : r.state.isHeld with
      | false => simp [hheld]
      | true => simpa [hheld] using h i r hi hheld

theorem State.tooClose_iff {c : StoredContent} : s.tooClose l c = true ↔ TooClose s l c := by
  simp only [State.tooClose, List.any_eq_true]
  constructor
  · rintro ⟨slot, hslot, hclose⟩
    obtain ⟨i, hi⟩ := State.mem_slots_iff.1 hslot
    cases slot with
    | none => cases hclose
    | some r =>
      cases howner : r.state.owner with
      | none => simp [howner] at hclose
      | some o =>
        simp only [howner, Bool.and_eq_true, bne_iff_ne, decide_eq_true_eq] at hclose
        exact ⟨i, r, o, hi, hclose.1, RecordState.owner_eq_some_iff.1 howner, hclose.2⟩
  · rintro ⟨i, r, o, hi, hne, howner, hclose⟩
    refine ⟨some r, State.mem_slots_iff.2 ⟨i, hi⟩, ?_⟩
    simp only [RecordState.owner_eq_some_iff.2 howner, Bool.and_eq_true, bne_iff_ne, decide_eq_true_eq]
    exact ⟨hne, hclose⟩

theorem State.settleGait_bal : s.settleGait.bal = s.bal := by
  unfold State.settleGait
  cases s.seq.gait with
  | walking =>
    dsimp only
    split <;> rfl
  | holding =>
    dsimp only
    split <;> rfl
  | off | standing | stopping | halted => rfl

/-- The acceptance of a REBASE, its pose written out (R41, R136). -/
theorem State.acceptRebase_eq {dx dy dz : Word} :
    let w := ({ s with store := { s.store with walk := some ⟨some 0, dx, dy, dz, 0⟩ } } : State).addReason .rebase
    let shift (p d : Word) : Word := BitVec.ofInt 16 (max (-32767) (min 32767 (p.toInt + d.toInt)))
    s.acceptRebase dx dy dz =
      if s.bal.freshness = .none then w
      else { w with
        bal := { s.bal with
          pose := { s.bal.pose with x := shift s.bal.pose.x dx, y := shift s.bal.pose.y dy } } } := by
  dsimp only
  have kept : (({ s with store := { s.store with walk := some ⟨some 0, dx, dy, dz, 0⟩ } } : State).addReason
      .rebase).bal = s.bal := State.settleGait_bal
  change State.setBal _ (Balance.shift _ dx dy) = _
  rw [State.setStore, kept, Balance.shift]
  split
  · exact congrArg (State.setBal _) kept.symm
  · rfl

theorem State.age_eq : s.age r = (s.seq.stride.toNat + 4096 - r.birth.toNat) % 4096 := by
  rw [State.age, BitVec.toNat_sub]
  omega

end Sys2Proof.Machine
end

section
namespace Sys2Proof.Proofs

open Machine Claims

theorem submitCreatesACandidate : SubmitCreatesACandidate := by
  intro h c s x y z k ha hb
  dsimp only
  have bad_iff : (isLowest x || isLowest y || isLowest z || classWordBad k) = true ↔
      Lowest x ∨ Lowest y ∨ Lowest z ∨ BadClassWord k := by
    simp only [Bool.or_eq_true, isLowest_iff, classWordBad_iff, or_assoc]
  refine ⟨fun hw => ?_, fun hw hfull => ?_, fun hw i hfree hleast => ?_⟩
  · refine frameEvent_answered ha rfl rfl (by simp) ?_
    rw [takeSubmit, permittedIdle_noted rfl hb, if_pos (bad_iff.2 hw)]
    rfl
  · refine frameEvent_answered ha rfl rfl (by simp) ?_
    rw [takeSubmit, permittedIdle_noted rfl hb, if_neg (fun hc => hw (bad_iff.1 hc)),
      State.lowestFree_eq_none (s := noted s h _ _) hfull]
    rfl
  · refine frameEvent_answered ha rfl rfl (by simp) ?_
    rw [takeSubmit, permittedIdle_noted rfl hb, if_neg (fun hc => hw (bad_iff.1 hc)),
      State.lowestFree_eq_some (s := noted s h _ _) hfree hleast]
    simp only [State.newRecord, State.newContent_eq]
    rfl

theorem retireFreesUnheldRecords : RetireFreesUnheldRecords := by
  intro h c s handle ha hb
  have found {i r e} (hn : Names s handle i r) (he : retireRecord c i r (noted s h 5 1) = e) :
      takeRetire handle c (noted s h 5 1) = e := by
    rw [takeRetire, permittedIdle_noted rfl hb, named_noted, State.named_of_names hn]
    exact he
  refine ⟨fun hn => ?_, fun i r hn => ⟨fun hst => ?_, fun hst => ?_, fun o hst => ⟨fun hc => ?_, fun hc => ?_⟩,
    fun o hst => ?_, fun o f hst => ?_⟩⟩
  · refine frameEvent_answered ha rfl rfl (by simp) ?_
    rw [takeRetire, permittedIdle_noted rfl hb, named_noted, State.named_of_none hn]
    rfl
  · refine frameEvent_answered ha rfl rfl (by simp) (found hn ?_)
    simp only [retireRecord, hst]
    rfl
  · refine frameEvent_answered ha rfl rfl (by simp) (found hn ?_)
    simp only [retireRecord, hst]
    rfl
  · refine frameEvent_answered ha rfl rfl (by simp) (found hn ?_)
    simp only [retireRecord, hst, hc]
    rfl
  · refine frameEvent_answered ha rfl rfl (by simp) (found hn ?_)
    simp only [retireRecord, hst]
    cases c with
    | perception => exact absurd rfl hc
    | planner | supervisor => rfl
  · refine frameEvent_answered ha rfl rfl (by simp) (found hn ?_)
    simp only [retireRecord, hst]
    rfl
  · refine frameEvent_answered ha rfl rfl (by simp) (found hn ?_)
    simp only [retireRecord, hst]
    rfl

/-- Settles O14: SUBMIT at the lowest free index, RETIRE by the record's state and the client. -/
theorem submitAndRetire : Obligations.SubmitAndRetire := ⟨submitCreatesACandidate, retireFreesUnheldRecords⟩

/-- Settles O15: RESTORE by its checks in their order. -/
theorem restoreRewritesAFailedStanceRecord : Obligations.RestoreRewritesAFailedStanceRecord := by
  unfold Obligations.RestoreRewritesAFailedStanceRecord
  intro h s handle x y z k friction ha hb
  dsimp only
  have bad_iff : (isLowest x || isLowest y || isLowest z || classWordBad k || 511 < friction.toNat) = true ↔
      Lowest x ∨ Lowest y ∨ Lowest z ∨ BadClassWord k ∨ 511 < friction.toNat := by
    simp only [Bool.or_eq_true, isLowest_iff, classWordBad_iff, decide_eq_true_eq, or_assoc]
  refine ⟨fun hw => ?_, fun hw hn => ?_, fun hw i r hn => ⟨fun hno => ?_, fun o hg hst => ?_⟩⟩
  · refine frameEvent_answered ha rfl rfl (by simp) ?_
    rw [takeRestore, permittedIdle_noted rfl hb, if_pos (bad_iff.2 hw)]
    rfl
  · refine frameEvent_answered ha rfl rfl (by simp) ?_
    rw [takeRestore, permittedIdle_noted rfl hb, if_neg (fun hc => hw (bad_iff.1 hc)), named_noted,
      State.named_of_none hn]
    rfl
  · refine frameEvent_answered ha rfl rfl (by simp) ?_
    rw [takeRestore, permittedIdle_noted rfl hb, if_neg (fun hc => hw (bad_iff.1 hc)), named_noted,
      State.named_of_names hn]
    by_cases hg : s.seq.gait = .halted
    · have hno := hno.resolve_left (· hg)
      refine (if_neg (not_not.2 hg)).trans ?_
      cases hst : r.state with
      | candidate | reserved _ | target _ | suspect => rfl
      | loaded o f =>
        cases f with
        | false => rfl
        | true => exact absurd hst (hno o)
    · exact if_pos hg
  · refine frameEvent_answered ha rfl rfl (by simp) ?_
    rw [takeRestore, permittedIdle_noted rfl hb, if_neg (fun hc => hw (bad_iff.1 hc)), named_noted,
      State.named_of_names hn]
    refine (if_neg (not_not.2 hg)).trans ?_
    simp only [hst, restoredContent, class_of_field, slope_of_field, confidence_of_field]
    rfl

/-- Settles O16: REBASE by its checks in their order, and the walk that it starts. -/
theorem rebaseStartsTheWalk : Obligations.RebaseStartsTheWalk := by
  unfold Obligations.RebaseStartsTheWalk
  intro h s dx dy dz ha hb
  dsimp only
  have bad_iff : (isLowest dx || isLowest dy || isLowest dz) = true ↔ Lowest dx ∨ Lowest dy ∨ Lowest dz := by
    simp only [Bool.or_eq_true, isLowest_iff, or_assoc]
  have busy_iff : ((noted s h 7 3).anyInFlight || (noted s h 7 3).seq.liftPending.isSome) = true ↔
      (∃ l, (s.leg l).phase.inFlight = true) ∨ s.seq.liftPending ≠ none := by
    rw [Bool.or_eq_true, State.anyInFlight_iff, Option.isSome_iff_ne_none]
    rfl
  have check_iff : (noted s h 7 3).preCheck dx dy dz = true ↔ ∀ i r, s.slot i = some r →
      ((∃ o, r.state = .reserved o) ∨ (∃ o, r.state = .target o) ∨ ∃ o f, r.state = .loaded o f) →
        StaysInFrame r.content dx dy dz := by
    simp only [State.preCheck_iff, RecordState.isHeld_iff, shiftsInFrame_iff]
    rfl
  refine ⟨fun hw => ?_, fun hw hl => ?_, fun hw hl hs => ?_, fun hw hl hs => ?_⟩
  · refine frameEvent_answered ha rfl rfl (by simp) ?_
    rw [takeRebase, permittedIdle_noted rfl hb, if_pos (bad_iff.2 hw)]
    rfl
  · refine frameEvent_answered ha rfl rfl (by simp) ?_
    rw [takeRebase, permittedIdle_noted rfl hb, if_neg (fun hc => hw (bad_iff.1 hc))]
    exact if_pos (busy_iff.2 hl)
  · refine frameEvent_answered ha rfl rfl (by simp) ?_
    rw [takeRebase, permittedIdle_noted rfl hb, if_neg (fun hc => hw (bad_iff.1 hc))]
    have fails : (noted s h 7 3).preCheck dx dy dz = false := Bool.eq_false_iff.2 fun hc => hs (check_iff.1 hc)
    exact (if_neg fun hc => hl (busy_iff.1 hc)).trans (if_pos (congrArg not fails))
  · refine frameEvent_answered ha rfl rfl (by simp) ?_
    rw [takeRebase, permittedIdle_noted rfl hb, if_neg (fun hc => hw (bad_iff.1 hc))]
    have passes : (noted s h 7 3).preCheck dx dy dz = true := check_iff.2 hs
    refine (if_neg fun hc => hl (busy_iff.1 hc)).trans ((if_neg ?_).trans ?_)
    · exact fun hc => Bool.false_ne_true ((congrArg not passes).symm.trans hc)
    · exact congrArg (Prod.mk _) (State.acceptRebase_eq (s := noted s h 7 3))

theorem walkShiftsOrRetiresEachRecord : WalkShiftsOrRetiresEachRecord := by
  intro s
  refine ⟨fun hw => ?_, fun w i hw hi => ?_⟩
  · refine congrArg Host.Outcome.next ?_
    change State.walkVisit (begun s) = _
    rw [State.walkVisit]
    cases hwalk : (begun s).store.walk with
    | none => rfl
    | some w =>
      have hnext : w.next = none := hw w hwalk
      simp only [hnext]
  · have visit : (begun s).walkVisit = match s.slot i with
        | none => (begun s).walkOn w i w.retired
        | some r => (begun s).walkRecord w i r := by
      have hwalk : (begun s).store.walk = some w := hw
      simp only [State.walkVisit, hwalk, hi]
      rfl
    refine ⟨fun hslot => congrArg Host.Outcome.next (visit.trans ?_), fun r hr => ?_⟩
    · rw [hslot]
      rfl
    · rw [hr] at visit
      refine ⟨fun hf => congrArg Host.Outcome.next (visit.trans ?_), fun hc hs =>
        congrArg Host.Outcome.next (visit.trans ?_), fun hf hc => congrArg Host.Outcome.next (visit.trans ?_), fun hf hs =>
        congrArg Host.Outcome.next (visit.trans ?_)⟩
      · have fits : shiftsInFrame r.content w.dx w.dy w.dz = true := shiftsInFrame_iff.2 hf
        simp only [State.walkRecord, fits, if_true]
        cases r.state <;> rfl
      · simp only [State.walkRecord]
        cases hst : r.state with
        | candidate => exact absurd hst hc
        | suspect => exact absurd hst hs
        | reserved _ | target _ | loaded _ _ => rfl
      · simp only [State.walkRecord, hc]
        exact if_neg fun h => hf (shiftsInFrame_iff.1 h)
      · simp only [State.walkRecord, hs]
        exact if_neg fun h => hf (shiftsInFrame_iff.1 h)

theorem walkCompletionEndsTheRebase : WalkCompletionEndsTheRebase := by
  intro s
  refine ⟨fun hw => ?_, fun w hw hi => ?_⟩
  · refine congrArg Host.Outcome.next ?_
    change (match s.store.walk with
      | none => begun s
      | some w => if w.next.isNone then (begun s).completeWalk w else begun s) = begun s
    cases hwalk : s.store.walk with
    | none => rfl
    | some w => exact if_neg (by simpa using hw w hwalk)
  · refine congrArg Host.Outcome.next ?_
    change (match s.store.walk with
      | none => begun s
      | some w => if w.next.isNone then (begun s).completeWalk w else begun s) = _
    rw [hw]
    exact if_pos (by rw [hi]; rfl)

/-- Settles O17: the rebase walk's visits and its completion. -/
theorem rebaseWalkRuns : Obligations.RebaseWalkRuns := ⟨walkShiftsOrRetiresEachRecord, walkCompletionEndsTheRebase⟩

end Sys2Proof.Proofs
end

section
/-! SUPPORT. AMEND's checks and the content it leaves, and the records that leave or join a queue (R27 to R29, R52, R54). -/

namespace Sys2Proof.Machine

open Claims

variable {s : State} {w mask x y z k : Word} {i : RecordIndex} {r : FootRecord} {l : Leg}

theorem amendBad_iff : amendBad mask x y z k = true ↔
    (mask.getLsbD 0 = true ∧ (Lowest x ∨ Lowest y ∨ Lowest z)) ∨ (mask.getLsbD 1 = true ∧ 7 < (k.extractLsb' 12 4).toNat)
      ∨ (mask.getLsbD 2 = true ∧ 12 < (k.extractLsb' 8 4).toNat)
      ∨ (mask.getLsbD 3 = true ∧ 15 < (k.extractLsb' 0 8).toNat) := by
  simp only [amendBad, Bool.or_eq_true, Bool.and_eq_true, decide_eq_true_eq, isLowest_iff, or_assoc]
  rfl

theorem selectsNothing_iff : selectsNothing mask = true ↔
    ¬mask.getLsbD 0 = true ∧ ¬mask.getLsbD 1 = true ∧ ¬mask.getLsbD 2 = true ∧ ¬mask.getLsbD 3 = true
      ∧ ¬mask.getLsbD 4 = true := by
  simp only [selectsNothing, selPosition, selClass, selSlope, selConfidence, selClearSlips, Bool.not_eq_true',
    Bool.or_eq_false_iff, Bool.not_eq_true, and_assoc]

theorem unselected_of_selectsNothing (h : selectsNothing mask = true) :
    ¬mask.getLsbD 0 = true ∧ ¬mask.getLsbD 4 = true := by
  obtain ⟨h0, _, _, _, h4⟩ := selectsNothing_iff.1 h
  exact ⟨h0, h4⟩

/-- The content that AMEND leaves, each selection deciding its own fields (R14, R28). -/
theorem State.amendedContent_eq (c : StoredContent) (gen : BitVec 4) :
    s.amendedContent mask x y z k c gen = amended s mask x y z k c gen := by
  obtain ⟨position, h0⟩ : ∃ b, mask.getLsbD 0 = b := ⟨_, rfl⟩
  obtain ⟨cls, h1⟩ : ∃ b, mask.getLsbD 1 = b := ⟨_, rfl⟩
  obtain ⟨slope, h2⟩ : ∃ b, mask.getLsbD 2 = b := ⟨_, rfl⟩
  obtain ⟨confidence, h3⟩ : ∃ b, mask.getLsbD 3 = b := ⟨_, rfl⟩
  obtain ⟨slips, h4⟩ : ∃ b, mask.getLsbD 4 = b := ⟨_, rfl⟩
  have h0' : selPosition mask = position := h0
  have h1' : selClass mask = cls := h1
  have h2' : selSlope mask = slope := h2
  have h3' : selConfidence mask = confidence := h3
  have h4' : selClearSlips mask = slips := h4
  simp only [State.amendedContent, amended, h0, h1, h2, h3, h4, h0', h1', h2', h3', h4', class_of_field, slope_of_field,
    confidence_of_field, State.frictionOf]
  cases position <;> cases cls <;> cases slope <;> cases confidence <;> cases slips <;> rfl

theorem State.modRecord_of_slot {f : FootRecord → FootRecord} (h : s.slot i = some r) :
    s.modRecord i f = s.setSlot i (some (f r)) := by
  rw [State.modRecord, h]

/-- AMEND of a found record: its own checks by the record's state, then its effect (R27). -/
def amendFound (mask x y z k : Word) (i : RecordIndex) (r : FootRecord) (s : State) : Effect :=
  match amendRefusal mask r.state with
  | some e => refuse s e
  | none => amendRecord mask x y z k i r s

/-- AMEND of a record that its words and handle have named (R27). -/
theorem takeAmend_found {h : FrameHead} {c : Client} (hc : c ≠ .planner) (hb : s.rebasing = false)
    (hw : amendBad mask x y z k = false) (hn : Names s w i r) :
    takeAmend w mask x y z k c (noted s h 2 6) = amendFound mask x y z k i r (noted s h 2 6) := by
  have may : notPlanner c = true := by
    cases c with
    | planner => exact absurd rfl hc
    | perception | supervisor => rfl
  rw [takeAmend, permittedIdle_noted may hb, if_neg (by simp [hw]), named_noted, State.named_of_names hn]
  rfl

/-- AMEND's effect with this content written, by the record's state (R28, R29). -/
def amendWritten (mask : Word) (content : StoredContent) (i : RecordIndex) (r : FootRecord) (s : State) : Effect :=
  match r.state with
  | .reserved o => amendReserved o i r content s
  | .candidate => answer (s.setSlot i (some { r with content := content })).recount .done
  | .suspect =>
    if selClearSlips mask then
      answer (s.setSlot i (some (FootRecord.moveTo { r with content := content } .candidate s.seq.stride))).recount .done
    else answer (s.setSlot i (some { r with content := content })) .done
  | .target _ | .loaded _ _ => refuse s .inUse

theorem amendRecord_of_selects (hsome : ¬selectsNothing mask = true) : amendRecord mask x y z k i r s =
    amendWritten mask (s.amendedContent mask x y z k r.content (s.gen i)) i r s :=
  if_neg hsome

theorem amendWritten_reserved {content : StoredContent} (h : r.state = .reserved l) :
    amendWritten mask content i r s = amendReserved l i r content s := by
  rw [amendWritten, h]

/-- AMEND of a RESERVED record that stays admissible leaves it in its place. -/
theorem amendReserved_stays {content : StoredContent} (hs : slopePasses content = true)
    (hp : s.param 13 ≤ (content.confidence.toNat : Int)) : amendReserved l i r content s =
      answer ((s.setSlot i (some { r with content := content })).reportQueue l (s.queue l)
        ((s.queue l).head?.map Handle.index == some i)) .done :=
  if_pos (by simp [hs, State.confidencePasses, hp])

theorem amendReserved_leaves {content : StoredContent}
    (hf : slopePasses content = false ∨ (content.confidence.toNat : Int) < s.param 13) : amendReserved l i r content s =
      answer ((((s.dropFromQueue l i).setSlot i
        (some (FootRecord.moveTo { r with content := content } .candidate s.seq.stride))).reportQueue l (s.queue l)
          false).recount) .dequeued := by
  refine if_neg ?_
  rcases hf with hf | hf
  · simp [hf]
  · simp [State.confidencePasses, hf]

end Sys2Proof.Machine
end

section
namespace Sys2Proof.Proofs

open Machine Claims

/-- Settles O11: AMEND by its checks, and by the record's state what it leaves. -/
theorem amendChangesTheSelectedFields : Obligations.AmendChangesTheSelectedFields := by
  unfold Obligations.AmendChangesTheSelectedFields
  intro h c s handle mask x y z k ha hc hb
  have may : notPlanner c = true := by
    cases c with
    | planner => exact absurd rfl hc
    | perception | supervisor => rfl
  dsimp only
  rw [← amendBad_iff, ← selectsNothing_iff, Bool.not_eq_true]
  refine ⟨fun hw => ?_, fun hw hn => ?_, fun hw i r hn => ?_⟩
  · refine frameEvent_answered ha rfl rfl (by simp) ?_
    rw [takeAmend, permittedIdle_noted may hb, if_pos hw]
    rfl
  · refine frameEvent_answered ha rfl rfl (by simp) ?_
    rw [takeAmend, permittedIdle_noted may hb, if_neg (by simp [hw]), named_noted, State.named_of_none hn]
    rfl
  have refused {e} (he : amendRefusal mask r.state = some e) :
      Gives (.amend h handle mask x y z k) s (told s h 2 6 e []) := by
    refine frameEvent_answered ha rfl rfl (by simp) ((takeAmend_found hc hb hw hn).trans ?_)
    rw [amendFound, he]
    rfl
  have taken {t e} (hr : amendRefusal mask r.state = none)
      (ht : amendRecord mask x y z k i r (noted s h 2 6) = answer t e) :
      Gives (.amend h handle mask x y z k) s (answered t h 2 e []) := by
    refine frameEvent_answered ha rfl rfl (by simp) ((takeAmend_found hc hb hw hn).trans ?_)
    rw [amendFound, hr]
    exact ht
  have written (hsome : ¬selectsNothing mask = true) : amendRecord mask x y z k i r (noted s h 2 6) =
      amendWritten mask (amended s mask x y z k r.content (s.gen i)) i r (noted s h 2 6) := by
    rw [amendRecord_of_selects hsome, State.amendedContent_eq]
    rfl
  refine ⟨fun o hst => refused ?_, fun o f hst => refused ?_, fun hst h4 => refused ?_, fun o hst h04 => refused ?_,
    fun hno hst => taken ?_ ?_, fun hno hst => taken ?_ ?_, fun o hno hst => taken ?_ ?_, fun hsome h4 hst => taken ?_ ?_,
    fun hsome h4 hst => taken ?_ ?_, fun h4 hst => taken ?_ ?_, fun o hsome h0 h4 hst => ⟨fun hp => taken ?_ ?_,
      fun hf => taken ?_ ?_⟩⟩
  · simp only [hst, amendRefusal]
  · simp only [hst, amendRefusal]
  · simp only [hst, amendRefusal, selClearSlips, h4, if_true]
  · simp only [hst, amendRefusal, selClearSlips, selPosition]
    exact if_pos (by simpa [or_comm] using h04)
  · simp only [hst, amendRefusal]
  · simp only [amendRecord, hno, if_true, amendNothing, hst]
  · simp only [hst, amendRefusal]
    exact if_neg (unselected_of_selectsNothing hno).2
  · simp only [amendRecord, hno, if_true, amendNothing, hst]
  · simp only [hst, amendRefusal, selClearSlips, selPosition]
    exact if_neg (by simpa using (unselected_of_selectsNothing hno).symm)
  · simp only [amendRecord, hno, if_true, amendNothing, hst]
    rfl
  · simp only [hst, amendRefusal, selClearSlips, h4]
    rfl
  · rw [written hsome]
    simp only [amendWritten, hst]
  · simp only [hst, amendRefusal]
  · rw [written hsome]
    simp only [amendWritten, hst]
    exact if_neg h4
  · simp only [hst, amendRefusal]
  · rw [written fun hno => (unselected_of_selectsNothing hno).2 h4]
    simp only [amendWritten, hst]
    exact if_pos h4
  · simp only [hst, amendRefusal]
    exact if_neg fun hsel => (Bool.or_eq_true _ _ ▸ hsel).elim h4 h0
  · rw [written hsome, amendWritten_reserved hst]
    exact amendReserved_stays (s := noted s h 2 6) hp.1 hp.2
  · simp only [hst, amendRefusal]
    exact if_neg fun hsel => (Bool.or_eq_true _ _ ▸ hsel).elim h4 h0
  · rw [written hsome, amendWritten_reserved hst]
    exact amendReserved_leaves (s := noted s h 2 6) hf

end Sys2Proof.Proofs
end

section
/-! SUPPORT. The sweep's visit by the record's age, and RESERVE's checks in their order (R36, R49 to R52). -/

namespace Sys2Proof.Machine

open Claims

variable {s : State} {w : Word} {i : RecordIndex} {r : FootRecord} {l : Leg}

theorem verifies_iff {c : StoredContent} {gen : BitVec 4} :
    verifies c gen = true ↔ checkCode (coveredWords c gen) = c.check := beq_iff_eq

theorem State.confidencePasses_iff {c : StoredContent} :
    s.confidencePasses c = true ↔ s.param 13 ≤ (c.confidence.toNat : Int) := decide_eq_true_iff

theorem notPerception_of_ne {c : Client} (h : c ≠ .perception) : notPerception c = true := by
  cases c with
  | perception => exact absurd rfl h
  | planner | supervisor => rfl

end Sys2Proof.Machine
end

section
namespace Sys2Proof.Proofs

open Machine Claims

theorem sweepExpiresOldRecords : SweepExpiresOldRecords := by
  intro s
  refine ⟨fun hn => congrArg Host.Outcome.next ?_, fun i hi => ?_⟩
  · have rests : (begun s).store.sweep = none := hn
    change State.sweepVisit (begun s) = _
    rw [State.sweepVisit, rests]
  · dsimp only
    have visit {t} (ht : (match s.slot i with
        | none => (begun s).setStore { s.store with sweep := nextIndex i }
        | some r => ((begun s).setStore { s.store with sweep := nextIndex i }).sweepRecord i r) = t) :
        Gives .sweepVisit s t := by
      have sweeps : (begun s).store.sweep = some i := hi
      refine congrArg Host.Outcome.next (Eq.trans ?_ ht)
      change State.sweepVisit (begun s) = _
      rw [State.sweepVisit, sweeps]
      rfl
    refine ⟨fun hslot => visit ?_, fun r hr => ⟨fun hold => visit ?_, fun hc hs => visit ?_, fun hold hst => visit ?_,
      fun hold hst => visit ?_⟩⟩
    · rw [hslot]
      rfl
    · rw [hr]
      have young : ¬ s.paramNat 12 < s.age r := by rwa [State.age_eq]
      simp only [State.sweepRecord]
      cases r.state with
      | candidate => exact if_neg young
      | suspect => exact if_neg young
      | reserved _ | target _ | loaded _ _ => rfl
    · rw [hr]
      simp only [State.sweepRecord]
      cases hst : r.state with
      | candidate => exact absurd hst hc
      | suspect => exact absurd hst hs
      | reserved _ | target _ | loaded _ _ => rfl
    · rw [hr]
      have aged : s.paramNat 12 < s.age r := by rwa [State.age_eq]
      simp only [State.sweepRecord, hst]
      exact if_pos aged
    · rw [hr]
      have aged : s.paramNat 12 < s.age r := by rwa [State.age_eq]
      simp only [State.sweepRecord, hst]
      exact if_pos aged

theorem disturbanceChangesContentAlone : DisturbanceChangesContentAlone := by
  intro i content s
  have event {t} (ht : (match s.slot i with
      | none => begun s
      | some r => if verifies content (s.gen i) then begun s
          else (begun s).setSlot i (some { r with content := content })) = t) :
      Gives (.storedContentDisturbance i content) s t := congrArg Host.Outcome.next ht
  refine ⟨fun r hr hv => event ?_, fun h => event ?_⟩
  · rw [hr]
    exact if_neg fun hc => hv (verifies_iff.1 hc)
  · cases hslot : s.slot i with
    | none => rfl
    | some r => exact if_pos (verifies_iff.2 (h.resolve_left (by simp [hslot])))

/-- Settles O18: the expiry sweep's visits, and a disturbance of stored content. -/
theorem sweepAndDisturbance : Obligations.SweepAndDisturbance :=
  ⟨sweepExpiresOldRecords, disturbanceChangesContentAlone⟩

theorem reserveJoinsTheQueue : ReserveJoinsTheQueue := by
  intro h c s leg handle ha hc hb
  have may := notPerception_of_ne hc
  dsimp only
  refine ⟨fun hw => ?_, fun l hl => ⟨fun hn => ?_, fun i r hn => ?_⟩⟩
  · refine frameEvent_answered ha rfl rfl (by simp) ?_
    rw [takeReserve, permittedIdle_noted may hb, legOf_eq_none hw]
    rfl
  · refine frameEvent_answered ha rfl rfl (by simp) ?_
    rw [takeReserve, permittedIdle_noted may hb, legOf_of_legWord hl, named_noted, State.named_of_none hn]
    rfl
  have taken {t e} (ht : reserveChecks l i r (noted s h 8 2) = answer t e) :
      Gives (.reserve h leg handle) s (answered t h 8 e []) := by
    refine frameEvent_answered ha rfl rfl (by simp) ?_
    rw [takeReserve, permittedIdle_noted may hb, legOf_of_legWord hl, named_noted, State.named_of_names hn]
    exact ht
  refine ⟨fun hst => taken (if_pos hst), fun hst hlen => taken ?_, fun hst hlen => ?_⟩
  · exact (if_neg (not_not.2 hst)).trans (if_pos hlen)
  have checks : reserveChecks l i r (noted s h 8 2) =
      if !slopePasses r.content then refuse (noted s h 8 2) .notAdmissible
      else if !s.confidencePasses r.content then refuse (noted s h 8 2) .notAdmissible
      else if !verifies r.content (s.gen i) then answer ((noted s h 8 2).failRecord i r) .checkFailed
      else if s.tooClose l r.content then refuse (noted s h 8 2) .tooClose
      else answer ((noted s h 8 2).reserveRecord l i r) .done :=
    (if_neg (not_not.2 hst)).trans (if_neg (Nat.not_le.2 hlen))
  refine ⟨fun hbad => taken ?_, fun hs hd hv => taken ?_, fun hs hd hv hclose => taken ?_, fun hs hd hv hfar => taken ?_⟩
  · rw [checks]
    rcases hbad with steep | doubtful
    · simp only [steep, Bool.not_false, if_true]
      rfl
    · have unsure : s.confidencePasses r.content = false :=
        Bool.eq_false_iff.2 fun hc => absurd (State.confidencePasses_iff.1 hc) (Int.not_le.2 doubtful)
      simp only [unsure, Bool.not_false, if_true, ite_self]
      rfl
  all_goals
    have level : slopePasses r.content = true := by simpa using hs
    have sure : s.confidencePasses r.content = true := State.confidencePasses_iff.2 (Int.not_lt.1 hd)
    simp only [checks, level, sure, Bool.not_true, Bool.false_eq_true, if_false]
  · exact if_pos (by simpa using fun hc => hv (verifies_iff.1 hc))
  all_goals simp only [verifies_iff.2 hv, Bool.not_true, Bool.false_eq_true, if_false]
  · exact if_pos (State.tooClose_iff.2 hclose)
  · refine (if_neg fun hc => hfar (State.tooClose_iff.1 hc)).trans ?_
    simp only [State.reserveRecord, FootRecord.reserveFor, if_pos hst]
    rfl

theorem cancelReturnsTheRecord : CancelReturnsTheRecord := by
  intro h c s handle ha hc hb
  have may := notPerception_of_ne hc
  dsimp only
  refine ⟨fun hn => ?_, fun i r hn => ?_⟩
  · refine frameEvent_answered ha rfl rfl (by simp) ?_
    rw [takeCancel, permittedIdle_noted may hb, named_noted, State.named_of_none hn]
    rfl
  have taken {t e} (ht : (match r.state with
      | .reserved o => answer ((noted s h 9 1).cancelRecord o i) .done
      | .target _ => refuse (noted s h 9 1) .inUse
      | .candidate | .loaded _ _ | .suspect => refuse (noted s h 9 1) .wrongState) = answer t e) :
      Gives (.cancel h handle) s (answered t h 9 e []) := by
    refine frameEvent_answered ha rfl rfl (by simp) ?_
    rw [takeCancel, permittedIdle_noted may hb, named_noted, State.named_of_names hn]
    exact ht
  refine ⟨fun o hst => taken ?_, fun o hst => taken ?_, fun hst => taken ?_⟩
  · rw [hst]
    have slot : ((noted s h 9 1).dropFromQueue o i).slot i = some r := hn.2.2
    simp only [State.cancelRecord, State.modRecord_of_slot slot, FootRecord.unreserve, if_pos hst]
    rfl
  · rw [hst]
    rfl
  · rcases hst with hst | hst | ⟨o, f, hst⟩
    all_goals
      rw [hst]
      rfl

/-- Settles O19: RESERVE and CANCEL by their checks in their order. -/
theorem reserveAndCancel : Obligations.ReserveAndCancel := ⟨reserveJoinsTheQueue, cancelReturnsTheRecord⟩

end Sys2Proof.Proofs
end

section
/-! SUPPORT. FIND's search: the nearest qualifying record, and the records that it finds failing on its way (R31, R32). -/

namespace Sys2Proof.Machine

open Claims

variable {s : State} {x y radius least : Word} {i j : RecordIndex} {d : Nat}

/-! ### The choice -/

theorem State.findDistance_eq_some_iff :
    s.findDistance x y radius least i = some d ↔ Qualifies s x y radius least i d := by
  unfold State.findDistance Qualifies
  cases s.slot i with
  | none => simp
  | some r =>
    simp only [State.confidencePasses_iff, chebyshev, Option.some.injEq]
    constructor
    · intro h
      split at h
      · next hq =>
        obtain ⟨hst, hd, hs, hc, hl⟩ := hq
        obtain rfl := Option.some.inj h
        exact ⟨r, rfl, hst, hs, hc, hl, rfl, hd⟩
      · cases h
    · rintro ⟨r', rfl, hst, hs, hc, hl, rfl, hd⟩
      exact if_pos ⟨hst, hd, hs, hc, hl⟩

/-- The choice after some indexes: none where none of them has a distance, else the least distance with the lowest index
among equals. -/
def ChosenAmong (distance : RecordIndex → Option Nat) (is : List RecordIndex) (best : Option (RecordIndex × Nat)) : Prop :=
  match best with
  | none => ∀ j ∈ is, distance j = none
  | some (i, d) => distance i = some d ∧ ∀ j ∈ is, ∀ e, distance j = some e → d < e ∨ (d = e ∧ i ≤ j)

/-- One more index, above all those before it, keeps the choice. -/
theorem ChosenAmong.nearer {distance : RecordIndex → Option Nat} {is : List RecordIndex}
    {best : Option (RecordIndex × Nat)} (h : ChosenAmong distance is best) (hb : ∀ i d, best = some (i, d) → i ∈ is)
    (habove : ∀ i ∈ is, i ≤ j) : ChosenAmong distance (is ++ [j]) (Machine.nearer best j (distance j)) := by
  cases hd : distance j with
  | none =>
    cases best with
    | none =>
      intro k hk
      rcases List.mem_append.1 hk with hk | hk
      · exact h k hk
      · rwa [List.mem_singleton.1 hk]
    | some b =>
      obtain ⟨i, d⟩ := b
      refine ⟨h.1, fun k hk e he => ?_⟩
      rcases List.mem_append.1 hk with hk | hk
      · exact h.2 k hk e he
      · rw [List.mem_singleton.1 hk, hd] at he
        cases he
  | some e =>
    cases best with
    | none =>
      refine ⟨hd, fun k hk e' he' => ?_⟩
      rcases List.mem_append.1 hk with hk | hk
      · rw [h k hk] at he'
        cases he'
      · rw [List.mem_singleton.1 hk, hd] at he'
        exact .inr ⟨Option.some.inj he', (List.mem_singleton.1 hk).ge⟩
    | some b =>
      obtain ⟨i, d⟩ := b
      by_cases hlt : e < d
      · have chosen : Machine.nearer (some (i, d)) j (some e) = some (j, e) := if_pos hlt
        rw [chosen]
        refine ⟨hd, fun k hk e' he' => ?_⟩
        rcases List.mem_append.1 hk with hk | hk
        · have := h.2 k hk e' he'
          omega
        · rw [List.mem_singleton.1 hk, hd] at he'
          exact .inr ⟨Option.some.inj he', (List.mem_singleton.1 hk).ge⟩
      · have chosen : Machine.nearer (some (i, d)) j (some e) = some (i, d) := if_neg hlt
        rw [chosen]
        refine ⟨h.1, fun k hk e' he' => ?_⟩
        rcases List.mem_append.1 hk with hk | hk
        · exact h.2 k hk e' he'
        · rw [List.mem_singleton.1 hk, hd] at he'
          obtain rfl := Option.some.inj he'
          have hij := habove i (hb i d rfl)
          rw [List.mem_singleton.1 hk]
          rcases Nat.lt_or_eq_of_le (Nat.not_lt.1 hlt) with hlt | heq
          · exact .inl hlt
          · exact .inr ⟨heq, hij⟩

/-- The choice is the earlier one or the new index. -/
theorem nearer_eq_some {best : Option (RecordIndex × Nat)} {e : Option Nat} (h : nearer best j e = some (i, d)) :
    best = some (i, d) ∨ i = j := by
  unfold nearer at h
  split at h
  · exact .inl h
  · exact .inr (by simpa using congrArg (Option.map Prod.fst) h.symm)
  · split at h
    · exact .inr (by simpa using congrArg (Option.map Prod.fst) h.symm)
    · exact .inl h

/-- The choice over ascending indexes, one after the other. -/
theorem chosenAmong_foldl (distance : RecordIndex → Option Nat) (is : List RecordIndex) (hs : is.Pairwise (· < ·)) :
    ChosenAmong distance is (is.foldl (fun best i => nearer best i (distance i)) none)
      ∧ ∀ i d, is.foldl (fun best i => nearer best i (distance i)) none = some (i, d) → i ∈ is := by
  induction is using List.reverseRecOn with
  | nil => exact ⟨fun _ h => absurd h List.not_mem_nil, fun _ _ h => nomatch h⟩
  | append_singleton is j ih =>
    obtain ⟨hs, -, habove⟩ := List.pairwise_append.1 hs
    obtain ⟨hc, hm⟩ := ih hs
    rw [List.foldl_append, List.foldl_cons, List.foldl_nil]
    refine ⟨hc.nearer hm fun i hi => (habove i hi j (List.mem_singleton_self j)).le, fun i d hb => ?_⟩
    rcases nearer_eq_some hb with hb | rfl
    · exact List.mem_append.2 (.inl (hm i d hb))
    · exact List.mem_append.2 (.inr (List.mem_singleton_self i))

theorem State.findBest_chosen : ChosenAmong (s.findDistance x y radius least) allIndexes (s.findBest x y radius least) :=
  (chosenAmong_foldl _ _ (List.pairwise_lt_finRange 40)).1

theorem State.not_qualifies_of_findBest (h : s.findBest x y radius least = none) (i : RecordIndex) (d : Nat) :
    ¬ Qualifies s x y radius least i d := by
  have chosen := State.findBest_chosen (s := s) (x := x) (y := y) (radius := radius) (least := least)
  rw [h] at chosen
  intro hq
  have found := chosen i (List.mem_finRange i)
  rw [State.findDistance_eq_some_iff.2 hq] at found
  cases found

theorem State.nearest_of_findBest (h : s.findBest x y radius least = some (i, d)) : Nearest s x y radius least i d := by
  have chosen := State.findBest_chosen (s := s) (x := x) (y := y) (radius := radius) (least := least)
  rw [h] at chosen
  obtain ⟨hi, hleast⟩ := chosen
  exact ⟨State.findDistance_eq_some_iff.1 hi, fun j e hq =>
    hleast j (List.mem_finRange j) e (State.findDistance_eq_some_iff.2 hq)⟩

theorem State.findBest_eq_none (h : ∀ i d, ¬ Qualifies s x y radius least i d) : s.findBest x y radius least = none := by
  refine Option.eq_none_iff_forall_ne_some.2 fun ⟨i, d⟩ hb => h i d ?_
  exact (State.nearest_of_findBest hb).1

/-- There is one nearest record. -/
theorem nearest_unique {e : Nat} (hi : Nearest s x y radius least i d) (hj : Nearest s x y radius least j e) :
    i = j ∧ d = e := by
  obtain ⟨qi, li⟩ := hi
  obtain ⟨qj, lj⟩ := hj
  rcases li j e qj with hlt | ⟨heq, hij⟩
  · rcases lj i d qi with hlt' | ⟨heq, -⟩
    · exact absurd hlt' hlt.asymm
    · exact absurd heq hlt.ne'
  · rcases lj i d qi with hlt | ⟨-, hji⟩
    · exact absurd heq hlt.ne'
    · exact ⟨le_antisymm hij hji, heq⟩

theorem State.findBest_eq_some (h : Nearest s x y radius least i d) : s.findBest x y radius least = some (i, d) := by
  cases hb : s.findBest x y radius least with
  | none => exact absurd h.1 (State.not_qualifies_of_findBest hb i d)
  | some b =>
    obtain ⟨rfl, rfl⟩ := nearest_unique h (State.nearest_of_findBest (i := b.1) (d := b.2) hb)
    rfl

/-! ### The search -/

theorem State.freeFailed_eq_freedByCheck {r : FootRecord} (h : s.slot i = some r) : s.freeFailed i = freedByCheck s i := by
  have slot : s.setCheckFlag.slot i = some r := h
  rw [State.freeFailed, State.freeRecord, slot]
  rfl

/-- The number of records that are not FREE. -/
def State.occupied (s : State) : Nat := (Finset.univ.filter fun i => s.slot i ≠ none).card

theorem State.occupied_le : s.occupied ≤ 40 := (Finset.card_le_univ _).trans (by simp)

theorem State.occupied_freedByCheck {r : FootRecord} (h : s.slot i = some r) :
    (freedByCheck s i).occupied < s.occupied := by
  have slot (j : RecordIndex) : (freedByCheck s i).slot j = if i = j then none else s.slot j :=
    State.slot_setSlot s i j none
  refine Finset.card_lt_card ⟨fun j hj => ?_, fun hle => ?_⟩
  · simp only [Finset.mem_filter, Finset.mem_univ, true_and, slot] at hj ⊢
    split at hj
    · exact absurd rfl hj
    · exact hj
  · have hi := hle (Finset.mem_filter.2 ⟨Finset.mem_univ i, by simp [h]⟩)
    simp [slot] at hi

/-- What the search finds, after the records that it frees: the nearest record, which verifies, or none (R32). -/
def Found (x y radius least : Word) (t : State) : Option (RecordIndex × Nat) → Prop
  | none => ∀ i d, ¬ Qualifies t x y radius least i d
  | some (i, d) => Nearest t x y radius least i d ∧ Verifies t i

/-- The search with more rounds left than records ends in what it finds. -/
theorem findLoop_spec (x y radius least : Word) (n : Nat) (s : State) (freed : Bool) (hn : s.occupied < n) :
    ∃ failed t found, SearchFrees x y radius least s failed t ∧ Found x y radius least t found
      ∧ findLoop x y radius least n (s, freed) = (found, t, freed || !failed.isEmpty) := by
  induction n generalizing s freed with
  | zero => omega
  | succ n ih =>
    cases hb : s.findBest x y radius least with
    | none =>
      refine ⟨[], s, none, rfl, State.not_qualifies_of_findBest hb, ?_⟩
      simp only [findLoop, hb, List.isEmpty_nil, Bool.not_true, Bool.or_false]
    | some b =>
      obtain ⟨i, d⟩ := b
      have hnear := State.nearest_of_findBest hb
      obtain ⟨⟨r, hr, -⟩, -⟩ := id hnear
      by_cases hv : verifies r.content (s.gen i) = true
      · refine ⟨[], s, some (i, d), rfl, ⟨hnear, r, hr, verifies_iff.1 hv⟩, ?_⟩
        simp only [findLoop, hb, hr, hv, if_true, List.isEmpty_nil, Bool.not_true, Bool.or_false]
      · have fewer := State.occupied_freedByCheck hr
        obtain ⟨failed, t, found, hfrees, hfound, hloop⟩ := ih (freedByCheck s i) true (by omega)
        refine ⟨i :: failed, t, found, ⟨⟨d, hnear⟩, fun ⟨r', hr', hc⟩ => hv ?_, hfrees⟩, hfound, ?_⟩
        · obtain rfl := Option.some.inj (hr.symm.trans hr')
          exact verifies_iff.2 hc
        · simp only [findLoop, hb, hr, hv, State.freeFailed_eq_freedByCheck hr, hloop, List.isEmpty_cons,
          Bool.not_false,
            Bool.or_true, Bool.true_or, Bool.false_eq_true, if_false]

theorem findLoop_none {n : Nat} {freed : Bool} (h : s.findBest x y radius least = none) :
    findLoop x y radius least (n + 1) (s, freed) = (none, s, freed) := by
  simp only [findLoop, h]

theorem findLoop_verified {n : Nat} {freed : Bool} (h : s.findBest x y radius least = some (i, d)) (hv : Verifies s i) :
    findLoop x y radius least (n + 1) (s, freed) = (some (i, d), s, freed) := by
  obtain ⟨r, hr, hc⟩ := hv
  simp only [findLoop, h, hr, verifies_iff.2 hc, if_true]

end Sys2Proof.Machine
end

section
namespace Sys2Proof.Proofs

open Machine Claims

/-- Settles O13: FIND by the search's invariant, each round freeing a record that fails its check. -/
theorem findAnswersTheNearest : Obligations.FindAnswersTheNearest := by
  unfold Obligations.FindAnswersTheNearest
  intro h c s x y radius least ha hb
  dsimp only
  have bad_iff : (isLowest x || isLowest y || radius.toNat < 1 || 2000 < radius.toNat || 15 < least.toNat) = true ↔
      Lowest x ∨ Lowest y ∨ radius.toNat < 1 ∨ 2000 < radius.toNat ∨ 15 < least.toNat := by
    simp only [Bool.or_eq_true, isLowest_iff, decide_eq_true_eq, or_assoc]
  have search {r : Option (RecordIndex × Nat) × State × Bool}
      (hw : ¬(Lowest x ∨ Lowest y ∨ radius.toNat < 1 ∨ 2000 < radius.toNat ∨ 15 < least.toNat))
      (hl : findLoop x y radius least 41 (noted s h 4 4, false) = r) :
      Gives (.find h x y radius least) s
        (answered (r.2.1.recountIf r.2.2) h 4 .done (r.2.1.findWords r.1)) := by
    refine frameEvent_answered ha rfl rfl (by simp) ?_
    rw [takeFind, permittedIdle_noted rfl hb, if_neg (fun hc => hw (bad_iff.1 hc))]
    exact congrArg (fun f => doneWith (f.2.1.recountIf f.2.2) (f.2.1.findWords f.1)) hl
  refine ⟨fun hw => ?_, fun hw hno => ?_, fun hw i d hnear hv => ?_, fun hw => ?_⟩
  · refine frameEvent_answered ha rfl rfl (by simp) ?_
    rw [takeFind, permittedIdle_noted rfl hb, if_pos (bad_iff.2 hw)]
    rfl
  · exact search hw (findLoop_none (State.findBest_eq_none (s := noted s h 4 4) hno))
  · exact search hw (findLoop_verified (State.findBest_eq_some (s := noted s h 4 4) hnear) hv)
  · have rounds : (noted s h 4 4).occupied < 41 := Nat.lt_succ_of_le State.occupied_le
    obtain ⟨failed, t, found, hfrees, hfound, hloop⟩ := findLoop_spec x y radius least 41 _ false rounds
    have counted : t.recountIf (false || !failed.isEmpty) = if failed = [] then t else t.recount := by
      cases failed <;> rfl
    have gives := search hw hloop
    rw [counted] at gives
    refine ⟨failed, t, hfrees, ?_⟩
    cases found with
    | none => exact .inl ⟨hfound, gives⟩
    | some b => exact .inr ⟨b.1, b.2, hfound.1, hfound.2, gives⟩

end Sys2Proof.Proofs
end

section
/-! SUPPORT. The test of a queue's front by the record in it, and what ADOPT, REDIRECT and the lift make of it (R57, R91, R92,
R110). -/

namespace Sys2Proof.Machine

open Claims

variable {s : State} {i : RecordIndex} {r : FootRecord} {l : Leg} {q : Handle} {rest : List Handle}

theorem State.frontTest_empty (h : s.queue l = []) : s.frontTest l = .empty := by rw [State.frontTest, h]

theorem State.frontTest_inadmissible (hq : s.queue l = q :: rest) (hr : s.slot q.index = some r)
    (hst : r.state = .reserved l)
    (hbad : slopePasses r.content = false ∨ (r.content.confidence.toNat : Int) < s.param 13) :
    s.frontTest l = .inadmissible := by
  simp only [State.frontTest, hq, hr, hst, ne_eq, not_true_eq_false, if_false]
  rcases hbad with steep | doubtful
  · simp only [steep, Bool.not_false, if_true]
  · have unsure : s.confidencePasses r.content = false :=
      Bool.eq_false_iff.2 fun hc => absurd (State.confidencePasses_iff.1 hc) (Int.not_le.2 doubtful)
    simp only [unsure, Bool.not_false, if_true, ite_self]

/-- A front that passes the slope and the confidence test is failed or usable by its check. -/
theorem State.frontTest_admissible (hq : s.queue l = q :: rest) (hr : s.slot q.index = some r)
    (hst : r.state = .reserved l)
    (hok : ¬(slopePasses r.content = false ∨ (r.content.confidence.toNat : Int) < s.param 13)) :
    (checkCode (coveredWords r.content (s.gen q.index)) ≠ r.content.check → s.frontTest l = .failed q)
      ∧ (checkCode (coveredWords r.content (s.gen q.index)) = r.content.check → s.frontTest l = .usable q) := by
  obtain ⟨level, sure⟩ := not_or.1 hok
  have level : slopePasses r.content = true := by simpa using level
  have sure : s.confidencePasses r.content = true := State.confidencePasses_iff.2 (Int.not_lt.1 sure)
  simp only [State.frontTest, hq, hr, hst, level, sure, ne_eq, not_true_eq_false, Bool.not_true, Bool.false_eq_true,
    if_false, ← verifies_iff]
  exact ⟨fun hv => if_neg hv, fun hv => if_pos hv⟩

theorem State.takeFront_of_reserved (hr : s.slot q.index = some r) (hst : r.state = .reserved l) :
    s.takeFront l q = (s.setQueue l ((s.queue l).filter fun e => e.index ≠ q.index)).setSlot q.index
      (some { r with state := .target l, tag := s.seq.stride }) := by
  have slot : (s.dropFromQueue l q.index).slot q.index = some r := hr
  rw [State.takeFront, State.modRecord_of_slot slot, FootRecord.takeAsTarget, if_pos hst]
  rfl

theorem State.composePlace_verified {h : Handle} (ht : (s.leg l).target = some h) (hr : s.slot h.index = some r)
    (hst : r.state = .target l) (hv : checkCode (coveredWords r.content (s.gen h.index)) = r.content.check) :
    s.composePlace l = s.sendOrder l .place (heldDifference r.content.x s.bal.com.1)
      (heldDifference r.content.y s.bal.com.2) r.content.z := by
  simp only [State.composePlace, ht, hr, hst, ne_eq, not_true_eq_false, if_false, verifies_iff.2 hv, if_true]

/-- REDIRECT's success from the taken front on (R110). -/
def State.aimAtFront (t : State) (l : Leg) (q : Handle) : State :=
  let aimed := t.setLeg l { t.leg l with phase := .swing, target := some q, bounce := 0, descentTimer := .stopped }
  let reported := (aimed.composePlace l).reportToSequencer l
  (if (reported.leg l).phase = .seeking then reported.seekAfterEntry l else reported).recount

theorem State.redirectTo_of_target {old : Handle} (ht : (s.leg l).target = some old) : s.redirectTo l q =
    ((s.modRecord old.index (FootRecord.releaseTarget s.seq.stride l)).takeFront l q).aimAtFront l q := by
  simp only [State.redirectTo, ht, State.aimAtFront]

/-- A leg that its PLACE leaves in SWING is not sent seeking by the report of its queue. -/
theorem State.aimAtFront_of_composed {t u : State}
    (h : (t.setLeg l { t.leg l with phase := .swing, target := some q, bounce := 0, descentTimer := .stopped }).composePlace
      l = u) (hu : (u.leg l).phase = .swing) : t.aimAtFront l q = (u.reportToSequencer l).recount := by
  have still : (u.reportToSequencer l).leg l = u.leg l :=
    ((State.reportToSequencer_tame l).legs l (by simp [hu]) (by simp [hu])).1
  simp only [State.aimAtFront, h, still, hu, if_neg (show ¬Phase.swing = Phase.seeking by decide)]

/-- REDIRECT's success with a target and a front that verifies: nothing of it makes the leg seek (R110). -/
theorem State.redirectTo_eq {old : Handle} {r' : FootRecord}
    (ht : (s.leg l).target = some old) (hr' : s.slot old.index = some r') (hst' : r'.state = .target l) (hne : old.index ≠ q.index)
    (hr : s.slot q.index = some r) (hst : r.state = .reserved l)
    (hv : checkCode (coveredWords r.content (s.gen q.index)) = r.content.check) :
    let released := s.setSlot old.index (some { r' with state := .candidate, tag := s.seq.stride })
    let taken := (released.setQueue l ((s.queue l).filter fun e => e.index ≠ q.index)).setSlot q.index
      (some { r with state := .target l, tag := s.seq.stride })
    let aimed := (taken.setLeg l
      { s.leg l with phase := .swing, target := some q, bounce := 0, descentTimer := .stopped }).sendOrder l
        .place (heldDifference r.content.x s.bal.com.1) (heldDifference r.content.y s.bal.com.2) r.content.z
    s.redirectTo l q = (aimed.reportToSequencer l).recount := by
  intro released taken aimed
  have hreleased : s.modRecord old.index (FootRecord.releaseTarget s.seq.stride l) = released := by
    rw [State.modRecord_of_slot hr', FootRecord.releaseTarget, if_pos hst']
    rfl
  have htaken : released.takeFront l q = taken :=
    State.takeFront_of_reserved ((State.slot_setSlot_ne s _ hne).trans hr) hst
  have slot : taken.slot q.index = some { r with state := .target l, tag := s.seq.stride } :=
    State.slot_setSlot_self _ _ _
  have haimed : (taken.setLeg l
      { s.leg l with phase := .swing, target := some q, bounce := 0, descentTimer := .stopped }).composePlace l = aimed :=
    State.composePlace_verified (h := q) (r := { r with state := .target l, tag := s.seq.stride })
      (by rw [State.leg_setLeg_self]) slot rfl hv
  have swings : (aimed.leg l).phase = .swing := by
    rw [State.leg, State.sendOrder_legs]
    exact congrArg LegState.phase (State.leg_setLeg_self _ l _)
  rw [State.redirectTo_of_target ht, hreleased, htaken]
  exact State.aimAtFront_of_composed haimed swings

/-- REDIRECT's checks from the phase on, once its leg is found. -/
theorem takeRedirect_found {h : FrameHead} {c : Client} {leg : Word} (hc : c ≠ .perception) (hb : s.rebasing = false)
    (hl : LegWord leg l) : takeRedirect leg c (noted s h 13 1) = redirectChecks l (noted s h 13 1) := by
  rw [takeRedirect, permittedIdle_noted (notPerception_of_ne hc) hb, legOf_of_legWord hl]

end Sys2Proof.Machine
end

section
namespace Sys2Proof.Proofs

open Machine Claims

/-- Settles O22: ADOPT by its checks in their order. -/
theorem adoptStandsTheLeg : Obligations.AdoptStandsTheLeg := by
  unfold Obligations.AdoptStandsTheLeg
  intro h c s leg handle ha hc hb
  have may := notPerception_of_ne hc
  dsimp only
  refine ⟨fun hw => ?_, fun l hl => ⟨fun hn => ?_, fun i r hn => ?_⟩⟩
  · refine frameEvent_answered ha rfl rfl (by simp) ?_
    rw [takeAdopt, permittedIdle_noted may hb, legOf_eq_none hw]
    rfl
  · refine frameEvent_answered ha rfl rfl (by simp) ?_
    rw [takeAdopt, permittedIdle_noted may hb, legOf_of_legWord hl, named_noted, State.named_of_none hn]
    rfl
  have taken {t e} (ht : adoptChecks l i r (noted s h 12 2) = answer t e) :
      Gives (.adopt h leg handle) s (answered t h 12 e []) := by
    refine frameEvent_answered ha rfl rfl (by simp) ?_
    rw [takeAdopt, permittedIdle_noted may hb, legOf_of_legWord hl, named_noted, State.named_of_names hn]
    exact ht
  refine ⟨fun hidle => taken (if_pos hidle), fun hidle hlight => taken ?_, fun hidle hheavy => ?_⟩
  · exact (if_neg (not_not.2 hidle)).trans (if_pos hlight)
  have checks : adoptChecks l i r (noted s h 12 2) =
      if r.state ≠ .candidate then refuse (noted s h 12 2) .wrongState
      else if !slopePasses r.content then refuse (noted s h 12 2) .notAdmissible
      else if !verifies r.content (s.gen i) then answer ((noted s h 12 2).failRecord i r) .checkFailed
      else if s.tooClose l r.content then refuse (noted s h 12 2) .tooClose
      else answer ((noted s h 12 2).adoptRecord l i r) .done :=
    (if_neg (not_not.2 hidle)).trans (if_neg hheavy)
  refine ⟨fun hst => taken (checks.trans (if_pos hst)), fun hst hs => taken ?_, fun hst hs hv => taken ?_,
    fun hst hs hv hclose => taken ?_, fun hst hs hv hfar => taken ?_⟩
  all_goals simp only [checks, hst, ne_eq, not_true_eq_false, if_false]
  · exact if_pos (by simp [hs])
  all_goals
    have level : slopePasses r.content = true := by simpa using hs
    simp only [level, Bool.not_true, Bool.false_eq_true, if_false]
  · exact if_pos (by simpa using fun hc => hv (verifies_iff.1 hc))
  all_goals simp only [verifies_iff.2 hv, Bool.not_true, Bool.false_eq_true, if_false]
  · exact if_pos (State.tooClose_iff.2 hclose)
  · refine (if_neg fun hc => hfar (State.tooClose_iff.1 hc)).trans ?_
    simp only [State.adoptRecord, FootRecord.adoptFor, if_pos hst]
    rfl

/-- Settles O23: REDIRECT by its leg's phase and the test of the front. -/
theorem redirectTakesTheFront : Obligations.RedirectTakesTheFront := by
  unfold Obligations.RedirectTakesTheFront
  intro h c s leg ha hc hb
  have may := notPerception_of_ne hc
  dsimp only
  refine ⟨fun hw => ?_, fun l hl => ?_⟩
  · refine frameEvent_answered ha rfl rfl (by simp) ?_
    rw [takeRedirect, permittedIdle_noted may hb, legOf_eq_none hw]
    rfl
  have taken {t e} (ht : redirectChecks l (noted s h 13 1) = answer t e) :
      Gives (.redirect h leg) s (answered t h 13 e []) :=
    frameEvent_answered ha rfl rfl (by simp) ((takeRedirect_found hc hb hl).trans ht)
  have moving (hm : (s.leg l).phase = .swing ∨ (s.leg l).phase = .descent) :
      ¬((s.leg l).phase ≠ .swing ∧ (s.leg l).phase ≠ .descent) := fun ⟨h1, h2⟩ => hm.elim h1 h2
  refine ⟨fun hm => taken (if_pos (not_or.1 hm)), fun hm hq => taken ?_, fun q rest r hm hq hr hst =>
    ⟨fun hbad => taken ?_, fun hok hv => taken ?_, fun hok hv old r' ht hne hr' hst' => taken ?_⟩⟩
  all_goals refine (if_neg (moving hm)).trans ?_
  · rw [State.frontTest_empty (s := noted s h 13 1) hq]
    rfl
  · rw [State.frontTest_inadmissible (s := noted s h 13 1) hq hr hst hbad]
    rfl
  · rw [(State.frontTest_admissible (s := noted s h 13 1) hq hr hst hok).1 hv]
    rfl
  · rw [(State.frontTest_admissible (s := noted s h 13 1) hq hr hst hok).2 hv]
    exact congrArg (answer · .done) (State.redirectTo_eq (s := noted s h 13 1) ht hr' hst' hne hr hst hv)

end Sys2Proof.Proofs
end

section
/-! SUPPORT. The lift by the test of its front, and what a withdrawal hands back (R57, R59, R92, R94, R122). -/

namespace Sys2Proof.Machine

open Claims

variable {s : State} {i : RecordIndex} {r : FootRecord} {l : Leg} {q : Handle} {rest : List Handle}

theorem State.sendOrder_seq (k : OrderKind) (x y z : Word) : (s.sendOrder l k x y z).seq = s.seq := by
  unfold State.sendOrder
  dsimp only
  split <;> rfl

theorem State.freeFailed_seq : (s.freeFailed i).seq = s.seq := by
  rw [State.freeFailed, State.freeRecord]
  split
  · rfl
  · split <;> rfl

theorem State.liftRefused_eq : s.liftRefused =
    if s.walkingSelected then
      (({ s with seq := { s.seq with liftPending := none } } : State).addReason .noFoothold).evaluate
    else ({ s with seq := { s.seq with liftPending := none } } : State).endStopping := rfl

theorem State.startLift_eq (hr : s.slot q.index = some r) (hst : r.state = .reserved l) :
    s.startLift l q =
      (((s.setQueue l ((s.queue l).filter fun e => e.index ≠ q.index)).setSlot q.index
        (some { r with state := .target l, tag := s.seq.stride })).setLeg l
        { s.leg l with
          phase := .unloading
          target := some q
          bounce := 0
          stepFlag := true
          swingTimer := .running (s.paramNat 6) }).sendOrder l .lift 0 0 0 := by
  rw [State.startLift, State.takeFront_of_reserved hr hst]
  rfl

theorem State.startLift_seq : (s.startLift l q).seq = s.seq := by
  rw [State.startLift, State.sendPlain, State.sendOrder_seq]
  change ((s.dropFromQueue l q.index).modRecord q.index _).seq = _
  unfold State.modRecord
  split <;> rfl

theorem State.liftTaken_kept (hs : s.seq.gait ≠ .stopping) (hh : s.seq.gait ≠ .halted) :
    s.liftTaken l q = (s.startLift l q).clearLift.reportToSequencer l := by
  unfold State.liftTaken
  cases hg : s.seq.gait with
  | stopping => exact absurd hg hs
  | halted => exact absurd hg hh
  | off | standing | walking | holding => rfl

theorem State.liftTaken_withdrawn (h : s.seq.gait = .stopping ∨ s.seq.gait = .halted) :
    s.liftTaken l q = ((s.startLift l q).clearLift.withdrawLift l).endStopping.recountIf
      (s.startLift l q).clearLift.withdrawalOverflows := by
  unfold State.liftTaken
  rcases h with hg | hg
  all_goals
    rw [hg]

/-- The event of a pending lift outside a rebase walk. -/
theorem gives_lift (hp : s.seq.liftPending = some l) (hb : s.rebasing = false) : Gives .lift s ((begun s).takeLift l) := by
  refine congrArg Host.Outcome.next ?_
  have pending : (begun s).seq.liftPending = some l := hp
  have idle : (begun s).rebasing = false := hb
  change (match (begun s).seq.liftPending with
    | none => begun s
    | some l => if (begun s).rebasing then begun s else (begun s).takeLift l) = _
  rw [pending]
  exact if_neg (by simp [idle])

theorem State.backToStance_eq {t : State} (ht : t.legs = s.legs) : t.backToStance l = (t.setLeg l
    { s.leg l with
      phase := .stance
      target := none
      bounce := 0
      stepFlag := false
      swingTimer := .stopped }).sendOrder l .hold 0 0 0 := by
  have hl : t.leg l = s.leg l := congrArg (PerLeg.get · l) ht
  rw [State.backToStance, hl]
  rfl

/-- A target handed back where its leg holds no third entry. -/
theorem State.handBackTarget_short (hr : s.slot q.index = some r) (hst : r.state = .target l)
    (hlen : (s.queue l).length < 3) : s.handBackTarget l q =
      (s.setSlot q.index (some { r with state := .reserved l, tag := s.seq.stride })).setQueue l (q :: s.queue l) := by
  have fits : (q :: s.queue l)[3]? = none := List.getElem?_eq_none (by simpa using hlen)
  simp only [State.handBackTarget, State.modRecord_of_slot hr, FootRecord.handBack, if_pos hst]
  change (match (q :: s.queue l)[3]? with | none => _ | some last => _) = _
  rw [fits]
  rfl

/-- A target handed back to a full queue: its last entry returns to CANDIDATE. -/
theorem State.handBackTarget_full {a b d : Handle} {r' : FootRecord} (hr : s.slot q.index = some r)
    (hst : r.state = .target l) (hq : s.queue l = [a, b, d]) (hne : d.index ≠ q.index) (hr' : s.slot d.index = some r')
    (hst' : r'.state = .reserved l) : s.handBackTarget l q =
      (((s.setSlot q.index (some { r with state := .reserved l, tag := s.seq.stride })).setQueue l [q, a, b]).setSlot
        d.index (some { r' with state := .candidate, tag := s.seq.stride })) := by
  have slot : ((s.setSlot q.index (some { r with state := .reserved l, tag := s.seq.stride })).setQueue l
      [q, a, b]).slot d.index = some r' := (State.slot_setSlot_ne s _ hne.symm).trans hr'
  simp only [State.handBackTarget, State.modRecord_of_slot hr, FootRecord.handBack, if_pos hst]
  change (match (q :: s.queue l)[3]? with
    | none => _
    | some last => State.modRecord (State.setQueue _ l ((q :: s.queue l).take 3)) last.index _) = _
  rw [hq]
  refine (State.modRecord_of_slot slot).trans ?_
  rw [FootRecord.unreserve, if_pos hst']
  rfl

end Sys2Proof.Machine
end

section
namespace Sys2Proof.Proofs

open Machine Claims

theorem liftTakesTheFront : LiftTakesTheFront := by
  intro s
  refine ⟨fun hno => congrArg Host.Outcome.next ?_, fun l hp hb => ?_⟩
  · change (match s.seq.liftPending with
      | none => begun s
      | some l => if s.rebasing then begun s else (begun s).takeLift l) = _
    rcases hno with hnone | hbusy
    · rw [hnone]
    · cases s.seq.liftPending with
      | none => rfl
      | some l => exact if_pos hbusy
  have gives {t} (ht : (begun s).takeLift l = t) : Gives .lift s t := ht ▸ gives_lift hp hb
  dsimp only
  refine ⟨fun hno => gives ?_, fun q rest r hphase hq hr hst => ?_⟩
  · by_cases hphase : (s.leg l).phase = .stance
    · refine (if_neg (not_not.2 hphase)).trans ?_
      rw [State.frontTest_empty (s := begun s) (hno.resolve_left (not_not.2 hphase))]
      rfl
    · exact if_pos hphase
  have standing : (begun s).takeLift l = match (begun s).frontTest l with
      | .empty => (begun s).liftRefused
      | .inadmissible => (begun s).liftRefused
      | .failed h => ((begun s).failReserved l h.index).liftRefused.reportToSequencer l
      | .usable h => (begun s).liftTaken l h := if_neg (not_not.2 hphase)
  refine ⟨fun hbad => gives ?_, fun hok hv => gives ?_, fun hok hv => ⟨fun hs hh => gives ?_, fun hg => gives ?_⟩⟩
  · rw [standing, State.frontTest_inadmissible (s := begun s) hq hr hst hbad]
    rfl
  · rw [standing, (State.frontTest_admissible (s := begun s) hq hr hst hok).1 hv]
    have kept : ((begun s).failReserved l q.index).seq = s.seq := State.freeFailed_seq
    have walks : ((begun s).failReserved l q.index).walkingSelected = s.walkingSelected := by
      rw [State.walkingSelected, kept]
      rfl
    refine congrArg (State.reportToSequencer · l) ?_
    rw [State.liftRefused_eq, walks, kept]
    rfl
  all_goals
    rw [standing, (State.frontTest_admissible (s := begun s) hq hr hst hok).2 hv]
    have cleared : ((begun s).startLift l q).clearLift =
        { (begun s).startLift l q with seq := { s.seq with liftPending := none } } := by
      rw [State.clearLift, State.startLift_seq]
      rfl
    rw [State.startLift_eq (s := begun s) hr hst] at cleared
  · exact (State.liftTaken_kept (s := begun s) hs hh).trans (congrArg (State.reportToSequencer · l)
      ((congrArg State.clearLift (State.startLift_eq (s := begun s) hr hst)).trans cleared))
  · refine (State.liftTaken_withdrawn (s := begun s) hg).trans ?_
    rw [State.startLift_eq (s := begun s) hr hst, cleared]
    rfl

theorem withdrawalHandsTheTargetBack : WithdrawalHandsTheTargetBack := by
  intro s l
  refine ⟨fun hphase => if_neg hphase, fun h r hphase ht hr hst => ?_⟩
  have withdraws : s.withdrawLift l = (s.handBackTarget l h).backToStance l := by
    rw [State.withdrawLift, if_pos hphase, ht]
  refine ⟨fun hlen => ?_, fun a b d r' hq hne hr' hst' => ?_⟩
  · rw [withdraws, State.handBackTarget_short hr hst hlen]
    exact State.backToStance_eq rfl
  · rw [withdraws, State.handBackTarget_full hr hst hq hne hr' hst']
    exact State.backToStance_eq rfl

/-- Settles O24: the lift by its leg's phase and its front, and what a withdrawal hands back. -/
theorem liftAndWithdrawal : Obligations.LiftAndWithdrawal := ⟨liftTakesTheFront, withdrawalHandsTheTargetBack⟩

end Sys2Proof.Proofs
end

section
/-! SUPPORT. The expiries of a leg's and a port's timers: what each event does while its timer runs (R70, R73 to R75, R84, R97,
R98, R107). -/

namespace Sys2Proof.Machine

open Claims

variable {s t : State} {i : RecordIndex} {r : FootRecord} {l : Leg} {h : Handle} {p : Nat}

theorem Timer.isRunning_iff {v : Timer} : v.isRunning = true ↔ v ≠ .stopped := by
  cases v <;> simp [Timer.isRunning]

theorem Timer.isRunning_of_running {v : Timer} (h : v = .running p) : v.isRunning = true := by
  rw [h]
  rfl

theorem State.slot_sendOrder (k : OrderKind) (x y z : Word) : (s.sendOrder l k x y z).slot i = s.slot i := by
  unfold State.sendOrder
  dsimp only
  split <;> rfl

/-- The leg enters SEEKING in a state whose legs are those of another. -/
theorem State.enterSeeking_eq (ht : t.legs = s.legs) : t.enterSeeking l = (t.setLeg l
    { s.leg l with
      phase := .seeking
      target := none
      bounce := 0
      descentTimer := .stopped
      settleTimer := .stopped }).sendOrder l .retract 0 0 0 := by
  have hl : t.leg l = s.leg l := congrArg (PerLeg.get · l) ht
  rw [State.enterSeeking, hl]
  rfl

theorem State.missVoid_eq (ht : (s.leg l).target = some h) (hr : s.slot h.index = some r) (hst : r.state = .target l) :
    s.missVoid l = (((((s.freeRecord h.index .void).setLeg l
      { s.leg l with
        phase := .seeking
        target := none
        bounce := 0
        descentTimer := .stopped
        settleTimer := .stopped }).sendOrder l .retract 0 0 0).pend nodeMiss (.miss l false h)).seekAndReport l) := by
  have freed : s.freeTarget l h.index = s.freeRecord h.index .void := by
    rw [State.freeTarget, hr]
    exact if_pos hst
  rw [State.missVoid, ht]
  simp only [freed, State.enterSeeking_eq (State.freeRecord_legs ..)]
  rfl

theorem State.confirmStance_eq (ht : (s.leg l).target = some h) (hr : s.slot h.index = some r)
    (hst : r.state = .target l) :
    let stood := ((s.setSlot h.index (some { r with state := .loaded l false, tag := s.seq.stride })).setLeg l
      { s.leg l with
        phase := .stance
        stance := some h
        target := none
        bounce := 0
        stepFlag := false
        swingTimer := .stopped
        settleTimer := .stopped }).sendOrder l .hold 0 0 0
    s.confirmStance l = (stood.computeCurrent.confirmationTold l (s.leg l).stepFlag).deliver false .slipCount l
      r.content.slips.toNat := by
  intro stood
  have slips : stood.slipsAt h.index = r.content.slips.toNat := by
    have slot : stood.slot h.index = some { r with state := .loaded l false, tag := s.seq.stride } :=
      (State.slot_sendOrder ..).trans (State.slot_setSlot_self _ _ _)
    rw [State.slipsAt, slot]
  simp only [State.confirmStance, ht, State.modRecord_of_slot hr, FootRecord.confirm, if_pos hst]
  rw [← slips]
  rfl

theorem State.linkUpHanded_eq {fault : Bool} (hf : (t.port l).jointFault = fault) : t.linkUpHanded l =
    if ((t.leg l).phase = .unseen ∨ (t.leg l).phase = .lost) ∧ fault = false then
      ((t.setLeg l { t.leg l with phase := .idle }).sendOrder l .hold 0 0 0).pend nodeLeg (.leg l .returned .none)
    else t := by
  subst hf
  rfl

/-- A leg's slip-latched flag cleared while another leg's remains set. -/
theorem State.slipRearmTold_latched {v : LegState} (h : ∃ m, m ≠ l ∧ (t.leg m).slipLatched = true) :
    (t.setLeg l v).slipRearmTold = t.setLeg l v := by
  obtain ⟨m, hm, hlatched⟩ := h
  refine if_pos (List.any_eq_true.2 ⟨m, Leg.mem_all m, ?_⟩)
  rwa [State.leg_setLeg, if_neg hm.symm]

/-- The last slip-latched flag cleared removes SLIP. -/
theorem State.slipRearmTold_clear {v : LegState} (h : ∀ m, m ≠ l → (t.leg m).slipLatched = false) :
    (t.setLeg l { v with slipLatched := false }).slipRearmTold =
      (t.setLeg l { v with slipLatched := false }).removeReason .slip := by
  refine if_neg ?_
  simp only [List.any_eq_true, not_exists, not_and, Bool.not_eq_true]
  intro m _
  by_cases hm : m = l
  · rw [hm, State.leg_setLeg_self]
  · rw [State.leg_setLeg, if_neg (Ne.symm hm)]
    exact h m hm

end Sys2Proof.Machine
end

section
namespace Sys2Proof.Proofs

open Machine Claims

/-- Settles O25: the leg timers' expiries, each in the phase of its rule. -/
theorem legTimersExpire : Obligations.LegTimersExpire := by
  unfold Obligations.LegTimersExpire
  intro s l p
  refine ⟨fun hno => congrArg Host.Outcome.next (if_neg ?_), fun hno => congrArg Host.Outcome.next (if_neg ?_),
    fun hno => congrArg Host.Outcome.next (if_neg ?_), fun hrun => congrArg Host.Outcome.next (if_pos ?_),
    fun h r ht hr hst => ⟨fun hphase hrun => congrArg Host.Outcome.next ?_, fun hphase hrun =>
      congrArg Host.Outcome.next ?_⟩⟩
  · exact fun ⟨hphase, hrun⟩ => hno.elim (· hphase) (Timer.isRunning_iff.1 hrun)
  · exact fun ⟨hphase, hrun⟩ => hno.elim (· hphase) (Timer.isRunning_iff.1 hrun)
  · exact fun hrun => Timer.isRunning_iff.1 hrun hno
  · exact Timer.isRunning_of_running hrun
  · exact (if_pos ⟨hphase, Timer.isRunning_of_running hrun⟩).trans (State.missVoid_eq (s := begun s) ht hr hst)
  · exact (if_pos ⟨hphase, Timer.isRunning_of_running hrun⟩).trans
      (State.confirmStance_eq (s := begun s) ht hr hst)

theorem echoExpiryResendsOrGivesUp : EchoExpiryResendsOrGivesUp := by
  intro s l o p
  refine ⟨fun hno => congrArg Host.Outcome.next ?_, fun hrun ho => ⟨fun hmore => congrArg Host.Outcome.next ?_,
    fun hdone => congrArg Host.Outcome.next ?_⟩⟩
  · change State.echoExpiry (begun s) l = _
    rcases hno with hs | hn
    · exact if_neg fun hrun => Timer.isRunning_iff.1 hrun hs
    · have none : ((begun s).port l).pending = none := hn
      simp only [State.echoExpiry, none, ite_self]
  all_goals
    change State.echoExpiry (begun s) l = _
    have runs : ((begun s).port l).echoTimer.isRunning = true := Timer.isRunning_of_running hrun
    have waits : ((begun s).port l).pending = some o := ho
    simp only [State.echoExpiry, runs, waits, ho, if_true]
  · exact if_pos hmore
  · exact if_neg (Nat.not_lt.2 hdone)

theorem windowEndsMoveTheLink : WindowEndsMoveTheLink := by
  intro s l
  dsimp only
  have ends {t} (ht : (begun s).windowEnd l = t) : Gives (.livenessWindowEnd l) s t := congrArg Host.Outcome.next ht
  refine ⟨fun hup hgood => ends ?_, fun hup hbad => ends ?_, fun hdown hgood hrun => ends ?_, fun hdown hgood hrun => ends ?_,
    fun hdown hbad => ends ?_⟩
  all_goals unfold State.windowEnd
  · exact (if_pos hup).trans (if_pos (decide_eq_true hgood))
  · exact (if_pos hup).trans (if_neg fun h => hbad (of_decide_eq_true h))
  all_goals refine (if_neg fun h => Bool.false_ne_true (hdown.symm.trans h)).trans ?_
  · exact (if_pos (decide_eq_true hgood)).trans (if_neg fun h => hrun (Nat.succ.inj h))
  · refine (if_pos (decide_eq_true hgood)).trans ((if_pos (congrArg (· + 1) hrun)).trans ?_)
    exact State.linkUpHanded_eq (fault := (s.port l).jointFault)
      ((congrArg Port.jointFault (State.port_setPort_self _ l _)).trans rfl)
  · exact if_neg fun h => hbad (of_decide_eq_true h)

theorem slipRearmClearsTheSlip : SlipRearmClearsTheSlip := by
  intro s l p
  refine ⟨fun hno => congrArg Host.Outcome.next ?_, fun hrun hheld => ?_⟩
  · change State.rearmExpiry (begun s) l = _
    rcases hno with hs | hn
    · exact if_neg fun hrun => Timer.isRunning_iff.1 hrun hs
    · have free : (begun s).rearmSlip l = begun s := if_neg fun h => Bool.false_ne_true (hn.symm.trans h)
      rw [State.rearmExpiry, free, ite_self]
  have rearms {t} (ht : (((begun s).setPort l { s.port l with slipHeld := false, rearmTimer := .stopped }).setLeg l
      { s.leg l with slipLatched := false }).slipRearmTold = t) : Gives (.slipRearmTimerExpiry l) s t := by
    refine congrArg Host.Outcome.next (Eq.trans ?_ ht)
    exact (if_pos (Timer.isRunning_of_running hrun)).trans (if_pos hheld)
  exact ⟨fun hm => rearms (State.slipRearmTold_latched hm), fun hm => rearms (State.slipRearmTold_clear hm)⟩

/-- Settles O26: the port timers' expiries and the ends of the liveness windows. -/
theorem portTimersExpire : Obligations.PortTimersExpire :=
  ⟨echoExpiryResendsOrGivesUp, windowEndsMoveTheLink, slipRearmClearsTheSlip⟩

end Sys2Proof.Proofs
end

section
/-! SUPPORT. A contact report's steps, each on the state as the steps before it have left it: what they keep of the port, and
each step by its cases (R66 to R69, R85). -/

namespace Sys2Proof.Machine

open Claims

variable {s t u : State} {l : Leg} {r : Report} {p q : Port} {echo : BitVec 4}

/-- The report, the window's count, the link and the joint fault latch of a port are those of another. -/
structure Port.SameReport (p q : Port) : Prop where
  report : q.report = p.report
  windowCount : q.windowCount = p.windowCount
  linkUp : q.linkUp = p.linkUp
  jointFault : q.jointFault = p.jointFault

namespace Port.SameReport

theorem refl (p : Port) : SameReport p p := ⟨rfl, rfl, rfl, rfl⟩

theorem trans {p' : Port} (h : SameReport p q) (h' : SameReport q p') : SameReport p p' :=
  ⟨h'.report.trans h.report, h'.windowCount.trans h.windowCount, h'.linkUp.trans h.linkUp,
    h'.jointFault.trans h.jointFault⟩

theorem of_calm (h : Calm .plain s t) (l : Leg) : SameReport (s.port l) (t.port l) := by
  have same := h.ports.same rfl l
  exact ⟨same.report, same.windowCount, same.linkUp, same.jointFault⟩

theorem setPort (h : SameReport (s.port l) q) : SameReport (s.port l) ((s.setPort l q).port l) := by
  rwa [State.port_setPort_self]

/-- A calm cascade after a change of the port. -/
theorem of_setPort (h : Calm .plain (s.setPort l q) t) (hq : SameReport p q) : SameReport p (t.port l) := by
  have same := of_calm h l
  rw [State.port_setPort_self] at same
  exact hq.trans same

theorem ite {c : Prop} [Decidable c] (ht : c → SameReport p (t.port l)) (hu : ¬c → SameReport p (u.port l)) :
    SameReport p ((if c then t else u).port l) := by
  split
  · exact ht ‹_›
  · exact hu ‹_›

end Port.SameReport

theorem State.reportEcho_same : (s.port l).SameReport ((s.reportEcho l echo).port l) := by
  unfold State.reportEcho
  dsimp only
  split
  · exact .refl _
  · exact .ite (fun _ => .setPort ⟨rfl, rfl, rfl, rfl⟩) fun _ => .refl _

theorem State.reportArrival_same : (s.port l).SameReport ((s.reportArrival l r echo).port l) :=
  .of_calm (State.reportArrival_calm l r echo) l

theorem State.rearmSlip_same : (s.port l).SameReport ((s.rearmSlip l).port l) :=
  .ite (fun _ => .of_setPort (State.slipRearmHanded_calm l) ⟨rfl, rfl, rfl, rfl⟩) fun _ => .refl _

theorem State.reportEdges_same : (s.port l).SameReport ((s.reportEdges l r).port l) := by
  unfold State.reportEdges
  dsimp only
  split
  · exact .setPort ⟨rfl, rfl, rfl, rfl⟩
  · refine .ite (fun _ => ?_) fun _ => .refl _
    have armed : (s.port l).SameReport ((s.setPort l { s.port l with arming := .forLiftoff }).port l) :=
      .setPort ⟨rfl, rfl, rfl, rfl⟩
    exact (armed.trans State.rearmSlip_same).trans (.of_calm (State.touchdownHanded_calm l) l)
  · exact .ite (fun _ => .of_setPort (State.liftoffHanded_calm l) ⟨rfl, rfl, rfl, rfl⟩) fun _ => .refl _

theorem State.reportSlip_same : (s.port l).SameReport ((s.reportSlip l r).port l) :=
  .ite (fun _ => .ite (fun _ => .setPort ⟨rfl, rfl, rfl, rfl⟩)
    fun _ => .of_setPort (State.slipHanded_calm l) ⟨rfl, rfl, rfl, rfl⟩)
    fun _ => .ite (fun _ => .setPort ⟨rfl, rfl, rfl, rfl⟩) fun _ => .refl _

theorem State.onUpLink_up {f : State → State} (h : (s.port l).linkUp = true) : s.onUpLink l f = f s := if_pos h

theorem State.onUpLink_down {f : State → State} (h : (s.port l).linkUp = false) : s.onUpLink l f = s :=
  if_neg (by simp [h])

theorem State.onUpLink_same {f : State → State} (h : (s.port l).SameReport ((f s).port l)) :
    (s.port l).SameReport ((s.onUpLink l f).port l) := .ite (fun _ => h) fun _ => .refl _

/-- A good report on a link that is DOWN after its second step stops there. -/
theorem State.goodReport_down (h : (((s.reportStore l r).reportFault l r).port l).linkUp = false) :
    s.goodReport l r echo = (s.reportStore l r).reportFault l r := by
  simp only [State.goodReport, State.onUpLink_down h]

/-- A good report on a link that is UP after its second step takes all its steps. -/
theorem State.goodReport_up (h : (((s.reportStore l r).reportFault l r).port l).linkUp = true) :
    s.goodReport l r echo =
      (((((s.reportStore l r).reportFault l r).reportEcho l echo).reportArrival l r echo).reportEdges l r).reportSlip l
        r := by
  have h3 := State.reportEcho_same (s := (s.reportStore l r).reportFault l r) (l := l) (echo := echo)
  have h4 := h3.trans (State.reportArrival_same (r := r) (echo := echo))
  have h5 := h4.trans (State.reportEdges_same (r := r))
  simp only [State.goodReport, State.onUpLink_up h, State.onUpLink_up (h3.linkUp.trans h),
    State.onUpLink_up (h4.linkUp.trans h), State.onUpLink_up (h5.linkUp.trans h)]

/-- The steps after the second keep the report, the count, the link and the latch. -/
theorem State.goodReport_same :
    (((s.reportStore l r).reportFault l r).port l).SameReport ((s.goodReport l r echo).port l) := by
  cases h : (((s.reportStore l r).reportFault l r).port l).linkUp with
  | false =>
    rw [State.goodReport_down h]
    exact .refl _
  | true =>
    rw [State.goodReport_up h]
    exact ((State.reportEcho_same.trans State.reportArrival_same).trans State.reportEdges_same).trans
      State.reportSlip_same

/-- The first step stores the report and counts it (R66). -/
theorem State.reportStore_same : Port.SameReport
    { s.port l with report := r, windowCount := min 255 ((s.port l).windowCount + 1) } ((s.reportStore l r).port l) := by
  have stored : Port.SameReport
      { s.port l with report := r, windowCount := min 255 ((s.port l).windowCount + 1) }
      ((s.setPort l { s.port l with report := r, windowCount := min 255 ((s.port l).windowCount + 1) }).port l) := by
    rw [State.port_setPort_self]
    exact .refl _
  refine stored.trans (.of_calm ?_ l)
  exact ((State.deliverFalse_calm _ _ _).trans (State.deliverFalse_calm _ _ _)).trans (State.deliverFalse_calm _ _ _)

/-- No step 2 where the code is 0 or the latch is set. -/
theorem State.reportFault_none (h : r.jointFault = 0 ∨ (s.port l).jointFault = true) : s.reportFault l r = s := if_pos h

/-- Step 2 on an UP link: the latch, the loss reason JOINT and the loss of the leg (R85). -/
theorem State.reportFault_up (hf : r.jointFault ≠ 0) (hp : (s.port l).jointFault = false)
    (hl : (s.port l).linkUp = true) :
    s.reportFault l r = (s.setPort l { s.port l with jointFault := true, loss := .joint }).legLost l :=
  (if_neg (not_or.2 ⟨hf, by simp [hp]⟩)).trans (if_pos hl)

/-- Step 2 on a DOWN link: the latch alone (R85). -/
theorem State.reportFault_down (hf : r.jointFault ≠ 0) (hp : (s.port l).jointFault = false)
    (hl : (s.port l).linkUp = false) : s.reportFault l r = s.setPort l { s.port l with jointFault := true } :=
  (if_neg (not_or.2 ⟨hf, by simp [hp]⟩)).trans (if_neg (by simp [hl]))

/-- The second step latches a nonzero code and keeps the report, the count and the link. -/
theorem State.reportFault_same : Port.SameReport
    { s.port l with jointFault := (s.port l).jointFault || r.jointFault != 0 } ((s.reportFault l r).port l) := by
  by_cases hn : r.jointFault = 0 ∨ (s.port l).jointFault = true
  · rw [State.reportFault_none hn]
    refine ⟨rfl, rfl, rfl, ?_⟩
    rcases hn with hz | hp
    · simp [hz]
    · simp [hp]
  obtain ⟨hf, hp⟩ := not_or.1 hn
  have hp : (s.port l).jointFault = false := by simpa using hp
  have latched : ((s.port l).jointFault || r.jointFault != 0) = true := by
    rw [Bool.or_eq_true, bne_iff_ne]
    exact .inr hf
  rw [latched]
  cases hl : (s.port l).linkUp with
  | true =>
    rw [State.reportFault_up hf hp hl]
    exact .of_setPort (State.legLost_calm l) ⟨rfl, rfl, rfl, rfl⟩
  | false =>
    rw [State.reportFault_down hf hp hl, State.port_setPort_self]
    exact ⟨rfl, rfl, rfl, rfl⟩

theorem State.reportEcho_params : (u.reportEcho l echo).params = u.params := by
  unfold State.reportEcho
  dsimp only
  split
  · rfl
  · split <;> rfl

/-- The arrival of a report, its test and the phase's test taken together (R68, R95). -/
theorem State.reportArrival_eq : u.reportArrival l r echo =
    if r.arrived = true ∧ (u.port l).lastKind = some .place ∧ echo = (u.port l).lastNumber ∧ (u.leg l).phase = .swing then
      u.setLeg l { u.leg l with phase := .descent, descentTimer := .running (u.paramNat 5) }
    else u := by
  unfold State.reportArrival State.arrivalHanded
  by_cases hc : r.arrived = true ∧ (u.port l).lastKind = some .place ∧ echo = (u.port l).lastNumber
  · obtain ⟨ha, hk, hn⟩ := hc
    simp only [ha, hk, hn, true_and, and_self, if_true]
    rfl
  · rw [if_neg hc, if_neg fun ⟨ha, hk, hn, _⟩ => hc ⟨ha, hk, hn⟩]

theorem laterSteps_of_reportEcho {flags : Word} {e : State} (he : u.reportEcho l (echoOf flags) = e) :
    laterSteps l flags r u = ((if flags.getLsbD 11 = true ∧ (e.port l).lastKind = some .place
        ∧ flags.extractLsb' 12 4 = (e.port l).lastNumber ∧ (e.leg l).phase = .swing then
      e.setLeg l { e.leg l with phase := .descent, descentTimer := .running (u.paramNat 5) }
    else e).reportEdges l r).reportSlip l r := by
  have echoed : e = match (u.port l).pending with
      | some o =>
        if flags.extractLsb' 12 4 = o.number then
          u.setPort l { u.port l with pending := none, retries := 0, echoTimer := .stopped }
        else u
      | none => u := by
    rw [← he, State.reportEcho]
    dsimp only
    split
    · next hn => rw [hn]
    · next o ho =>
      rw [ho]
      rfl
  rw [echoed]
  rfl

/-- The echo, the arrival, the edge and the slip of a report are its later steps. -/
theorem State.laterSteps_eq {flags normal tangential : Word} :
    ((((u.reportEcho l (echoOf flags)).reportArrival l (reportOf flags normal tangential) (echoOf flags)).reportEdges l
      (reportOf flags normal tangential)).reportSlip l (reportOf flags normal tangential)) =
      laterSteps l flags (reportOf flags normal tangential) u := by
  have same : (u.reportEcho l (echoOf flags)).paramNat 5 = u.paramNat 5 := by
    rw [State.paramNat, State.param, State.reportEcho_params]
    rfl
  rw [laterSteps_of_reportEcho rfl, State.reportArrival_eq, same]
  rfl

end Sys2Proof.Machine
end

section
namespace Sys2Proof.Proofs

open Machine Claims

theorem reportsAreStoredOrSetFrame : ReportsAreStoredOrSetFrame := by
  intro s l flags normal tangential check
  refine ⟨fun hbad => congrArg Host.Outcome.next (if_neg hbad), fun hgood => ?_⟩
  refine ⟨_, congrArg Host.Outcome.next (if_pos hgood), ?_⟩
  have stored := State.reportStore_same (s := begun s) (l := l) (r := reportOf flags normal tangential)
  have latched := State.reportFault_same (s := (begun s).reportStore l (reportOf flags normal tangential)) (l := l)
    (r := reportOf flags normal tangential)
  have kept := State.goodReport_same (s := begun s) (l := l) (r := reportOf flags normal tangential)
    (echo := echoOf flags)
  refine ⟨kept.report.trans (latched.report.trans stored.report),
    kept.windowCount.trans (latched.windowCount.trans stored.windowCount),
    kept.linkUp.trans (latched.linkUp.trans stored.linkUp), kept.jointFault.trans (latched.jointFault.trans ?_)⟩
  exact congrArg (· || _) stored.jointFault

/-- A good report is its six steps. -/
theorem gives_contactReport {s t : State} {l : Leg} {flags normal tangential : Word}
    (h : (begun s).goodReport l (reportOf flags normal tangential) (echoOf flags) = t) :
    Gives (.contactReport l flags normal tangential (checkCode [flags, normal, tangential])) s t :=
  congrArg Host.Outcome.next ((if_pos rfl).trans h)

theorem reportsTakeTheirStepsInOrder : ReportsTakeTheirStepsInOrder := by
  intro s l flags normal tangential
  dsimp only
  intro hnone
  have stored := State.reportStore_same (s := begun s) (l := l) (r := reportOf flags normal tangential)
  have second : ((begun s).reportStore l (reportOf flags normal tangential)).reportFault l
      (reportOf flags normal tangential) = (begun s).reportStore l (reportOf flags normal tangential) :=
    State.reportFault_none (hnone.symm.imp_right fun hp => stored.jointFault.trans hp)
  refine ⟨fun hdown => gives_contactReport ?_, fun hup => gives_contactReport ?_⟩
  · rw [State.goodReport_down (by rw [second]; exact stored.linkUp.trans hdown), second]
  · rw [State.goodReport_up (by rw [second]; exact stored.linkUp.trans hup), second, State.laterSteps_eq]

theorem firstJointFaultLosesTheLeg : FirstJointFaultLosesTheLeg := by
  intro s l flags normal tangential
  dsimp only
  intro hp hf
  have stored := State.reportStore_same (s := begun s) (l := l) (r := reportOf flags normal tangential)
  have hp := stored.jointFault.trans hp
  refine ⟨fun hdown => gives_contactReport ?_, fun hup => ?_⟩
  · have second := State.reportFault_down (r := reportOf flags normal tangential) hf hp (stored.linkUp.trans hdown)
    rw [State.goodReport_down ?_, second]
    rw [second, State.port_setPort_self]
    exact stored.linkUp.trans hdown
  · have second := State.reportFault_up (r := reportOf flags normal tangential) hf hp (stored.linkUp.trans hup)
    have up := State.reportFault_same (s := (begun s).reportStore l (reportOf flags normal tangential)) (l := l)
      (r := reportOf flags normal tangential) |>.linkUp.trans (stored.linkUp.trans hup)
    refine ⟨second ▸ up, gives_contactReport ?_⟩
    rw [State.goodReport_up up, second, State.laterSteps_eq]

theorem reportsDeliverTheirValues : ReportsDeliverTheirValues := by
  intro s l r
  dsimp only
  have ratio : tangentialRatio r.normal.toNat r.tangential.toNat (s.param 2) =
      ((if (r.normal.toNat : Int) < s.param 2 then 0 else min 32767 (r.tangential.toNat * 256 / r.normal.toNat) : Nat) : Int) := by
    rw [tangentialRatio]
    split <;> rfl
  have flag : (if r.overtemp then 1 else 0 : Int) = (r.overtemp.toNat : Int) := by cases r.overtemp <;> rfl
  rw [State.reportStore, ratio, flag]

/-- Settles O27: a contact report's arrival and its steps, each on the state as the steps before it left it. -/
theorem contactReportsAreTaken : Obligations.ContactReportsAreTaken :=
  ⟨reportsAreStoredOrSetFrame, reportsTakeTheirStepsInOrder, firstJointFaultLosesTheLeg, reportsDeliverTheirValues⟩

end Sys2Proof.Proofs
end

section
/-! SUPPORT. The contact edges, the liftoff by the leg's phase, the composition of PLACE, and the slip (R78 to R84, R93, R99,
R100, R102, R104). -/

namespace Sys2Proof.Machine

open Claims

variable {s t u : State} {l : Leg} {r : FootRecord} {h : Handle} {v : Report}

/-! ### Edges -/

theorem State.touchdownHanded_eq : u.touchdownHanded l = touchdownTaken l u := by
  unfold State.touchdownHanded touchdownTaken
  cases (u.leg l).phase <;> rfl

theorem State.touchdownEdge_free (hp : (s.port l).slipHeld = false) :
    s.touchdownEdge l = touchdownTaken l (s.setPort l { s.port l with arming := .forLiftoff }) := by
  have free : (s.setPort l { s.port l with arming := .forLiftoff }).rearmSlip l =
      s.setPort l { s.port l with arming := .forLiftoff } := by
    rw [State.rearmSlip, State.port_setPort_self]
    exact if_neg (by simp [hp])
  rw [State.touchdownEdge, free, State.touchdownHanded_eq]

theorem State.touchdownEdge_held (hp : (s.port l).slipHeld = true) :
    s.touchdownEdge l = touchdownTaken l (((s.setPort l
      { s.port l with arming := .forLiftoff, slipHeld := false, rearmTimer := .stopped }).setLeg l
        { s.leg l with slipLatched := false }).slipRearmTold) := by
  have rearmed : (s.setPort l { s.port l with arming := .forLiftoff }).rearmSlip l =
      (s.setPort l { s.port l with arming := .forLiftoff, slipHeld := false, rearmTimer := .stopped }).slipRearmHanded
        l := by
    rw [State.rearmSlip, State.port_setPort_self, State.setPort_setPort]
    exact if_pos hp
  rw [State.touchdownEdge, rearmed, State.touchdownHanded_eq]
  rfl

/-! ### Liftoff -/

theorem State.vacate_legs {i : RecordIndex} : (s.vacate i).legs = s.legs := by
  unfold State.vacate
  split
  · rfl
  · split
    · exact State.freeRecord_legs _
    · split <;> rfl
    all_goals rfl

theorem State.unloadRecord_legs {i : RecordIndex} : (s.unloadRecord i).legs = s.legs := by
  unfold State.unloadRecord
  split
  · rfl
  · split
    · exact State.freeRecord_legs _
    all_goals rfl

theorem State.slot_freeRecord_self {i : RecordIndex} (reason : RetireReason) : (s.freeRecord i reason).slot i = none := by
  unfold State.freeRecord
  split
  · assumption
  · have freed : ((s.setSlot i none).setGen i (s.gen i + 1)).slot i = none := State.slot_setSlot_self s i none
    dsimp only
    split
    · exact freed
    · exact freed

theorem State.supports_of_loaded {flagged : Bool} (hphase : (s.leg l).phase = .stance ∨ (s.leg l).phase = .unloading)
    (hs : (s.leg l).stance = some h) (hr : s.slot h.index = some r) (hst : r.state = .loaded l flagged) :
    s.supports l = !flagged := by
  simp only [State.supports, State.supportOf, if_pos hphase, hs, hr, hst]
  cases flagged <;> simp

theorem State.leaveStance_eq (hs : (s.leg l).stance = some h) : s.leaveStance l =
    (s.vacate h.index).setLeg l { s.leg l with stance := none, phase := .swing } := by
  have same : (s.vacate h.index).leg l = s.leg l := congrArg (PerLeg.get · l) State.vacate_legs
  simp only [State.leaveStance, hs, same]

/-- The vacate of a LOADED record makes it CANDIDATE where it has no slip and no flag (R11, R13). -/
theorem State.stanceBecame_leaveStance {flagged : Bool} (hs : (s.leg l).stance = some h)
    (hr : s.slot h.index = some r) (hst : r.state = .loaded l flagged) :
    s.stanceBecame (s.leaveStance l) l = decide (flagged = false ∧ r.content.slips = 0) := by
  have before : s.isCandidate h.index = false := by simp [State.isCandidate, hr, hst]
  have after : (s.leaveStance l).isCandidate h.index = (s.vacate h.index).isCandidate h.index := by
    rw [State.leaveStance_eq hs]
    rfl
  simp only [State.stanceBecame, hs, before, after, Bool.not_false, Bool.true_and]
  obtain ⟨-, hflagged, hclean, hslipped⟩ := Proofs.slipsAndVacatesMarkTheRecord s h.index r l hr
  cases flagged with
  | true => simp [hflagged hst, State.isCandidate, State.slot_freeRecord_self]
  | false =>
    by_cases hz : r.content.slips = 0
    · simp only [hclean hst hz, State.isCandidate, State.slot_setSlot_self, hz, and_self, decide_true]
      rfl
    · simp only [hslipped hst hz, State.isCandidate, State.slot_setSlot_self, hz, and_false, decide_false]
      rfl

/-- The liftoff edge in UNLOADING (R93, R105). -/
theorem State.liftoffUnloading_eq {flagged : Bool} (hphase : (s.leg l).phase = .unloading)
    (hs : (s.leg l).stance = some h) (hr : s.slot h.index = some r) (hst : r.state = .loaded l flagged) :
    let left := (s.vacate h.index).setLeg l { s.leg l with stance := none, phase := .swing }
    let placed := (if flagged then left else left.computeCurrent).composePlace l
    let settled := if (placed.leg l).phase = .seeking then placed.seekAndReport l else placed
    s.liftoffHanded l = (settled.deliver false .slipCount l 0).recountIf (decide (flagged = false ∧ r.content.slips = 0)) := by
  intro left placed settled
  have edge : s.liftoffHanded l = s.liftoffUnloading l := by rw [State.liftoffHanded, hphase]
  rw [edge, State.liftoffUnloading, State.supports_of_loaded (.inr hphase) hs hr hst,
    State.stanceBecame_leaveStance hs hr hst, State.leaveStance_eq hs]
  cases flagged <;> rfl

theorem State.unloadRecord_loaded (hr : s.slot h.index = some r) (hst : r.state = .loaded l false) :
    s.unloadRecord h.index = s.setSlot h.index
      (some { s.chargeSlip h.index r with state := .suspect, tag := s.seq.stride }) := by
  have state : (s.chargeSlip h.index r).state = .loaded l false := hst
  rw [State.unloadRecord, hr]
  simp only [hst, FootRecord.suspectLoaded, state]
  rfl

theorem State.unloadRecord_flagged (hr : s.slot h.index = some r) (hst : r.state = .loaded l true) :
    s.unloadRecord h.index = s.freeRecord h.index .check := by
  rw [State.unloadRecord, hr]
  simp only [hst]

/-- The liftoff edge in STANCE (R104, R105). -/
theorem State.liftoffStance_eq {flagged : Bool} (hphase : (s.leg l).phase = .stance)
    (hs : (s.leg l).stance = some h) (hr : s.slot h.index = some r) (hst : r.state = .loaded l flagged)
    (hu : s.unloadRecord h.index = u) :
    let seeking := (u.setLeg l { s.leg l with stance := none, stepFlag := false }).enterSeeking l
    let halted := (seeking.pend nodeLeg (.leg l .unexpectedUnload .none)).haltCause .supportLost
    s.liftoffHanded l =
      (((if flagged then halted else halted.computeCurrent).seekAndReport l).deliver false .slipCount l 0) := by
  intro seeking halted
  have same : (s.unloadRecord h.index).leg l = s.leg l := congrArg (PerLeg.get · l) State.unloadRecord_legs
  have edge : s.liftoffHanded l = s.liftoffStance l := by rw [State.liftoffHanded, hphase]
  rw [edge]
  rw [hu] at same
  simp only [State.liftoffStance, State.supports_of_loaded (.inl hphase) hs hr hst, hs, hu, State.unloadLeg, same]
  cases flagged <;> rfl

/-! ### Slip -/

theorem State.slipCondition_iff : s.slipCondition l v = true ↔ ∃ h c, s.slot h.index = some c
    ∧ (((s.leg l).phase = .stance ∧ (s.leg l).stance = some h)
      ∨ ((s.leg l).phase = .touchdown ∧ (s.leg l).target = some h))
    ∧ s.param 2 ≤ (v.normal.toNat : Int)
    ∧ c.content.friction.toNat * v.normal.toNat < v.tangential.toNat * 256 := by
  have used (c : FootRecord) : s.slipRecord l = some c ↔ ∃ h, s.slot h.index = some c
      ∧ (((s.leg l).phase = .stance ∧ (s.leg l).stance = some h)
        ∨ ((s.leg l).phase = .touchdown ∧ (s.leg l).target = some h)) := by
    unfold State.slipRecord
    cases (s.leg l).phase <;> simp [Option.bind_eq_some_iff, and_comm]
  unfold State.slipCondition
  cases hc : s.slipRecord l with
  | none =>
    refine ⟨(nomatch ·), fun ⟨h, c, hr, hleg, _⟩ => ?_⟩
    rw [(used c).2 ⟨h, hr, hleg⟩] at hc
    cases hc
  | some c =>
    simp only [Bool.and_eq_true, decide_eq_true_eq]
    obtain ⟨h, hr, hleg⟩ := (used c).1 hc
    refine ⟨fun ⟨hload, hslip⟩ => ⟨h, c, hr, hleg, hload, hslip⟩, fun ⟨h', c', hr', hleg', hload, hslip⟩ => ?_⟩
    obtain rfl := Option.some.inj (hc.symm.trans ((used c').2 ⟨h', hr', hleg'⟩))
    exact ⟨hload, hslip⟩


end Sys2Proof.Machine
end

section
namespace Sys2Proof.Proofs

open Machine Claims

theorem edgesFollowTheLoad : EdgesFollowTheLoad := by
  intro s l r
  dsimp only
  refine ⟨fun ha hl => ?_, fun ha hl => ?_, fun ha hl => ?_, fun ha hl => ?_, fun ha hl => ?_, fun ha hl hp => ?_,
    fun ha hl hp => ⟨fun hm => ?_, fun hm => ?_⟩⟩
  all_goals simp only [State.reportEdges, ha]
  · rw [if_pos hl]
  · rw [if_neg (Int.not_le.2 hl)]
  · rw [if_neg (Int.not_le.2 hl)]
  · rw [if_neg (Int.not_lt.2 hl)]
  · rw [if_pos hl]
    rfl
  · rw [if_pos hl, State.touchdownEdge_free hp]
  · rw [if_pos hl, State.touchdownEdge_held hp]
    exact congrArg (touchdownTaken l) (State.slipRearmTold_latched hm)
  · rw [if_pos hl, State.touchdownEdge_held hp]
    exact congrArg (touchdownTaken l) (State.slipRearmTold_clear hm)

theorem liftoffByPhase : LiftoffByPhase := by
  intro s l
  refine ⟨fun ⟨hu, ht, hs⟩ => ?_, fun hp hb => ?_, fun h r hp hb ht hr hst => ?_, fun h r hp hs hr hst => ?_,
    fun h g r hp hs ht hr hst => ?_⟩
  · unfold State.liftoffHanded
    cases hphase : (s.leg l).phase with
    | unloading => exact absurd hphase hu
    | touchdown => exact absurd hphase ht
    | stance => exact absurd hphase hs
    | unseen | idle | swing | seeking | descent | lost => rfl
  · rw [State.liftoffHanded, hp]
    exact if_pos hb
  · rw [State.liftoffHanded, hp]
    refine (if_neg (Nat.not_lt.2 hb)).trans ?_
    simp only [ht, State.modRecord_of_slot hr, FootRecord.suspectTarget, if_pos hst]
    rfl
  · rw [State.liftoffStance_eq hp hs hr hst (State.unloadRecord_loaded hr hst)]
    simp only [Bool.false_eq_true, if_false]
  · dsimp only
    intro hswing
    rw [State.liftoffUnloading_eq hp hs hr hst]
    simp only [Bool.false_eq_true, if_false, hswing, true_and]
    rfl

theorem placeVerifiesTheTarget : PlaceVerifiesTheTarget := by
  intro s l h r ht hr hst
  dsimp only
  refine ⟨fun hv => ?_, fun hv => ?_⟩
  · exact State.composePlace_verified ht hr hst hv
  · have failed : s.composePlace l = (s.freeFailed h.index).enterSeeking l := by
      simp only [State.composePlace, ht, hr, hst, ne_eq, not_true_eq_false, if_false]
      exact if_neg fun hc => hv (verifies_iff.1 hc)
    rw [failed, State.freeFailed_eq_freedByCheck hr]
    exact State.enterSeeking_eq (s := s) rfl

theorem liftoffOfAnyStanceRecord : LiftoffOfAnyStanceRecord := by
  intro s l h r flagged hs hr hst
  refine ⟨fun hp => ?_, fun hp hf => ?_⟩
  · dsimp only
    have vacated : (if flagged then s.freeRecord h.index .check else s.vacate h.index) = s.vacate h.index := by
      cases flagged with
      | true => exact ((Proofs.slipsAndVacatesMarkTheRecord s h.index r l hr).2.1 hst).symm
      | false => rfl
    rw [vacated, State.liftoffUnloading_eq hp hs hr hst, State.recountIf]
    simp only [decide_eq_true_eq]
  · subst hf
    rw [State.liftoffStance_eq hp hs hr hst (State.unloadRecord_flagged hr hst)]
    simp only [if_true]

/-- Settles O28: the contact edges by the arming, the liftoff by the phase, and the composition of PLACE. -/
theorem edgesAndLiftoffs : Obligations.EdgesAndLiftoffs :=
  ⟨edgesFollowTheLoad, liftoffByPhase, placeVerifiesTheTarget, liftoffOfAnyStanceRecord⟩

theorem slipFollowsTheLoads : SlipFollowsTheLoads := by
  intro s l r
  dsimp only
  rw [← State.slipCondition_iff]
  refine ⟨fun hh hp => ?_, fun hh hp => ?_, fun hh hp ht => ?_, fun hh hp => ?_⟩
  · exact (if_pos hh).trans (if_neg (by simp [hp]))
  · exact (if_pos hh).trans (if_pos hp)
  · exact (if_neg hh).trans (if_pos (by simp [hp, ht, Timer.isRunning]))
  · refine (if_neg hh).trans (if_neg ?_)
    rcases hp with hp | hp
    · simp [hp]
    · simp [Timer.isRunning_iff.2 hp]

theorem slipByPhase : SlipByPhase := by
  intro s l
  refine ⟨fun ⟨hs, ht⟩ => ?_, fun h r f hp hs hr hst => ?_, fun h r hp ht hr hst => ?_⟩
  · unfold State.slipHanded
    cases hphase : (s.leg l).phase with
    | touchdown => exact absurd hphase ht
    | stance => exact absurd hphase hs
    | unseen | idle | unloading | swing | seeking | descent | lost => rfl
  · have charged : s.chargeStance l h.index = s.setSlot h.index (some (s.chargeSlip h.index r)) := by
      rw [State.chargeStance, State.modRecord_of_slot hr]
      simp only [hst, if_true]
    have slips : (s.setSlot h.index (some (s.chargeSlip h.index r))).slipsAt h.index =
        (s.chargeSlip h.index r).content.slips.toNat := by
      rw [State.slipsAt, State.slot_setSlot_self]
    have same : (((s.setSlot h.index (some (s.chargeSlip h.index r))).sendPlain l .brace).pend nodeSlip
        (.slip l false h)).leg l = s.leg l := congrArg (PerLeg.get · l) (State.sendOrder_legs (s := s.setSlot ..) ..)
    rw [State.slipHanded, hp]
    simp only [State.slipInStance, hs, charged, slips, same]
    rfl
  · have charged : s.chargeTarget l h.index = s.setSlot h.index
        (some { s.chargeSlip h.index r with state := .suspect, tag := s.seq.stride }) := by
      have state : (s.chargeSlip h.index r).state = .target l := hst
      rw [State.chargeTarget, State.modRecord_of_slot hr, if_pos hst, FootRecord.suspectTarget, if_pos state]
      rfl
    rw [State.slipHanded, hp]
    simp only [State.slipInTouchdown, ht, charged]
    rfl

/-- Settles O29: a report's slip test, and the slip by the leg's phase. -/
theorem slipsAreTestedAndTaken : Obligations.SlipsAreTestedAndTaken := ⟨slipFollowsTheLoads, slipByPhase⟩

end Sys2Proof.Proofs
end

section
/-! SUPPORT. The gait sequencer's tests as propositions, and what its commands and notices do by the gait (R114 to R119, R125,
R126, R128, R130, R134, R135). -/

namespace Sys2Proof.Machine

open Claims

variable {s t : State} {l : Leg}

theorem State.walkingSelected_iff : s.walkingSelected = true ↔ s.seq.gait = .walking ∨ s.seq.gait = .holding := by
  unfold State.walkingSelected
  cases s.seq.gait <;> simp [Gait.isWalking]

theorem State.evaluateIfWalking_eq :
    s.evaluateIfWalking = if s.seq.gait = .walking ∨ s.seq.gait = .holding then s.evaluate else s := by
  simp only [State.evaluateIfWalking, State.walkingSelected_iff]

theorem State.allStance_iff : s.allStance = true ↔ ∀ l, (s.leg l).phase = .stance := by
  simp only [State.allStance, List.all_eq_true, beq_iff_eq]
  exact ⟨fun h l => h l (Leg.mem_all l), fun h l _ => h l⟩

theorem RecordState.isFailed_iff {st : RecordState} : st.isFailed = true ↔ ∃ o, st = .loaded o true := by
  cases st <;> simp [RecordState.isFailed]

theorem State.anyStanceFailed_iff : s.anyStanceFailed = true ↔ StanceFailed s := by
  simp only [State.anyStanceFailed, List.any_eq_true]
  constructor
  · rintro ⟨l, -, hl⟩
    cases hs : (s.leg l).stance with
    | none => simp [hs] at hl
    | some h =>
      cases hr : s.slot h.index with
      | none => simp [hs, hr] at hl
      | some r =>
        obtain ⟨o, ho⟩ := RecordState.isFailed_iff.1 (by simpa [hs, hr] using hl)
        exact ⟨l, h, r, o, hs, hr, ho⟩
  · rintro ⟨l, h, r, o, hs, hr, ho⟩
    refine ⟨l, Leg.mem_all l, ?_⟩
    simp only [hs, hr]
    exact RecordState.isFailed_iff.2 ⟨o, ho⟩

theorem State.marginUnsafe_iff : s.marginUnsafe = true ↔ Unbalanced s := by
  simp [State.marginUnsafe, Unbalanced]

theorem State.mustStop_iff : s.mustStop = true ↔
    s.seq.liftPending ≠ none ∨ ∃ l, (s.leg l).phase.inFlight = true ∧ (s.leg l).phase ≠ .unloading := by
  simp only [State.mustStop, Bool.or_eq_true, Option.isSome_iff_ne_none, List.any_eq_true, Bool.and_eq_true, bne_iff_ne]
  exact or_congr_right ⟨fun ⟨l, _, h⟩ => ⟨l, h⟩, fun ⟨l, h⟩ => ⟨l, Leg.mem_all l, h⟩⟩

theorem State.withdrawalOverflows_iff : s.withdrawalOverflows = true ↔
    ∃ l, (s.leg l).phase = .unloading ∧ (s.leg l).target ≠ none ∧ 3 ≤ (s.queue l).length := by
  simp only [State.withdrawalOverflows, List.any_eq_true, Bool.and_eq_true, beq_iff_eq, Option.isSome_iff_ne_none,
    decide_eq_true_eq, and_assoc]
  exact ⟨fun ⟨l, _, h⟩ => ⟨l, h⟩, fun ⟨l, h⟩ => ⟨l, Leg.mem_all l, h⟩⟩

/-! ### Reasons -/

theorem HoldReasons.put_eq (r : HoldReasons) (x : HoldReason) (b : Bool) : r.put x b = withReason r x b := by
  cases x <;> rfl

theorem HoldReasons.has_iff (r : HoldReasons) (x : HoldReason) : r.has x = true ↔ withReason r x true = r := by
  cases r
  cases x <;> simp [HoldReasons.has, withReason, eq_comm]

theorem State.settleGait_entersHolding (hg : s.seq.gait = .walking) (hr : s.seq.reasons ≠ .empty) :
    s.settleGait = ({ s with seq := { s.seq with gait := .holding } } : State).pend nodeGait
      (.gaitHolding s.seq.reasons) := by
  rw [State.settleGait, hg]
  exact if_neg hr

theorem State.settleGait_leavesHolding (hg : s.seq.gait = .holding) (hr : s.seq.reasons = .empty) :
    s.settleGait = { s with seq := { s.seq with gait := .walking } } := by
  rw [State.settleGait, hg]
  exact if_pos hr

theorem State.settleGait_stands (hw : s.seq.gait = .walking → s.seq.reasons = .empty)
    (hh : s.seq.gait = .holding → s.seq.reasons ≠ .empty) : s.settleGait = s := by
  unfold State.settleGait
  cases hg : s.seq.gait with
  | walking => exact if_pos (hw hg)
  | holding => exact if_neg (hh hg)
  | off | standing | stopping | halted => rfl

theorem State.settleGait_of_not_walking (hg : ¬(s.seq.gait = .walking ∨ s.seq.gait = .holding)) : s.settleGait = s :=
  State.settleGait_stands (fun h => absurd (.inl h) hg) fun h => absurd (.inr h) hg

/-- While walking is selected the gait that follows the set is WALKING or HOLDING. -/
theorem State.settleGait_walking (hg : s.seq.gait = .walking ∨ s.seq.gait = .holding) :
    s.settleGait.walkingSelected = true := by
  refine State.walkingSelected_iff.2 ?_
  unfold State.settleGait
  rcases hg with hg | hg
  · rw [hg]
    dsimp only
    split
    · exact .inl hg
    · exact .inr rfl
  · rw [hg]
    dsimp only
    split
    · exact .inl rfl
    · exact .inr hg

/-- A reason that is in the set leaves it while walking is selected. -/
theorem State.removeReason_walking {x : HoldReason} (hp : s.seq.reasons.has x = true)
    (hw : s.seq.gait = .walking ∨ s.seq.gait = .holding) :
    s.removeReason x = (s.putReason x false).settleGait.evaluate :=
  (if_pos hp).trans (if_pos (State.settleGait_walking (s := s.putReason x false) hw))

/-! ### Commands -/

theorem State.leaveTo_walking (hg : s.seq.gait = .walking ∨ s.seq.gait = .holding) (g : Gait) :
    s.leaveTo g = { s with seq := { s.seq with gait := g, reasons := trimmed s.seq.reasons } } := by
  rw [State.leaveTo, if_pos (State.walkingSelected_iff.2 hg)]
  rfl

theorem State.leaveTo_other (hg : ¬(s.seq.gait = .walking ∨ s.seq.gait = .holding)) (g : Gait) :
    s.leaveTo g = { s with seq := { s.seq with gait := g } } := by
  rw [State.leaveTo, if_neg fun h => hg (State.walkingSelected_iff.1 h)]
  rfl

theorem standEffect_off (hg : s.seq.gait = .off) : standEffect s =
    if s.allStance && !s.anyStanceFailed && !s.marginUnsafe then gaitAnswer (s.leaveTo .standing) .done
    else gaitAnswer s .wrongState := by
  rw [standEffect, hg]

theorem standEffect_walking (hg : s.seq.gait = .walking ∨ s.seq.gait = .holding) : standEffect s =
    if s.mustStop then gaitAnswer (s.leaveTo .stopping) .done else gaitAnswer s.standNow .done := by
  unfold standEffect
  rcases hg with hg | hg
  all_goals rw [hg]

theorem walkEffect_standing (hg : s.seq.gait = .standing) : walkEffect s =
    if s.allStance then gaitAnswer s.startWalking .done else gaitAnswer s .wrongState := by
  rw [walkEffect, hg]

theorem walkEffect_holding (hg : s.seq.gait = .holding) : walkEffect s = gaitAnswer (s.removeReason .pause) .done := by
  rw [walkEffect, hg]

theorem pauseEffect_walking (hg : s.seq.gait = .walking ∨ s.seq.gait = .holding) :
    pauseEffect s = gaitAnswer (s.addReason .pause) .done := by
  unfold pauseEffect
  rcases hg with hg | hg
  all_goals rw [hg]

theorem offEffect_standing (hg : s.seq.gait = .standing ∨ s.seq.gait = .halted) : offEffect s =
    if s.anyInFlight || s.seq.liftPending.isSome then gaitAnswer s .wrongState else gaitAnswer s.enterOff .done := by
  unfold offEffect
  rcases hg with hg | hg
  all_goals rw [hg]

/-- RESUME's checks taken together (R130). -/
def ResumeFit (s : State) : Prop :=
  s.seq.gait = .halted ∧ s.seq.liftPending = none ∧ (∀ l, (s.leg l).phase = .stance) ∧ ¬StanceFailed s ∧ ¬Unbalanced s

theorem takeResume_fit (h : ResumeFit s) : takeResume .supervisor s =
    gaitAnswer { s with seq := { s.seq with gait := .standing, haltReason := none } } .done := by
  obtain ⟨hg, hl, hst, hf, hm⟩ := h
  refine (if_neg (by decide)).trans ((if_neg (not_not.2 hg)).trans ((if_neg ?_).trans ((if_neg ?_).trans (if_neg ?_))))
  · simp [hl, State.allStance_iff.2 hst]
  · exact fun h => hf (State.anyStanceFailed_iff.1 h)
  · exact fun h => hm (State.marginUnsafe_iff.1 h)

theorem takeResume_unfit (h : ¬ResumeFit s) : takeResume .supervisor s = gaitAnswer s .wrongState := by
  refine (if_neg (by decide)).trans ?_
  by_cases hg : s.seq.gait = .halted
  · refine (if_neg (not_not.2 hg)).trans ?_
    by_cases hl : (s.seq.liftPending.isSome || !s.allStance) = true
    · exact if_pos hl
    · refine (if_neg hl).trans ?_
      by_cases hf : s.anyStanceFailed = true
      · exact if_pos hf
      · refine (if_neg hf).trans (if_pos ?_)
        obtain ⟨hlift, hst⟩ : s.seq.liftPending = none ∧ s.allStance = true := by simpa using hl
        by_contra hm
        exact h ⟨hg, hlift, State.allStance_iff.1 hst, fun h => hf (State.anyStanceFailed_iff.2 h),
          fun h => hm (State.marginUnsafe_iff.2 h)⟩
  · exact if_pos hg

/-! ### Notices -/

theorem State.endStopping_eq : s.endStopping =
    if s.seq.gait = .stopping ∧ s.anyInFlight = false ∧ s.seq.liftPending = none then
      ({ s with seq := { s.seq with gait := .standing } } : State).pend nodeGait .gaitStanding
    else s := by
  by_cases h : s.seq.gait = .stopping ∧ s.anyInFlight = false ∧ s.seq.liftPending = none
  · rw [State.endStopping, if_pos h, if_pos h, State.leaveTo_other (by simp [h.1])]
  · rw [State.endStopping, if_neg h, if_neg h]

theorem Pattern.eq_last_iff (p : Pattern) (l : Leg) :
    l = p.last ↔ (p = .forward ∧ l = .rf) ∨ (p = .backward ∧ l = .lh) := by
  cases p <;> simp [Pattern.last]

theorem stride_next (n : BitVec 12) : n + 1 = BitVec.ofNat 12 ((n.toNat + 1) % 4096) := by
  refine BitVec.eq_of_toNat_eq ?_
  rw [BitVec.toNat_add, BitVec.toNat_ofNat]
  simp

end Sys2Proof.Machine
end

section
namespace Sys2Proof.Proofs

open Machine Claims

theorem gaitFollowsTheSet : GaitFollowsTheSet := fun _ =>
  ⟨State.settleGait_entersHolding, State.settleGait_leavesHolding, State.settleGait_stands⟩

theorem reasonsComeAndGo : ReasonsComeAndGo := by
  intro s x
  dsimp only
  rw [← HoldReasons.has_iff, ← HoldReasons.put_eq, ← HoldReasons.put_eq]
  refine ⟨rfl, fun hno => if_neg hno, fun hp hw => ?_, fun hp hw => ?_⟩
  · exact State.removeReason_walking hp hw
  · have stands : (s.putReason x false).settleGait = s.putReason x false :=
      State.settleGait_of_not_walking (s := s.putReason x false) hw
    refine (if_pos hp).trans ?_
    dsimp only
    rw [stands]
    exact if_neg fun h => hw (State.walkingSelected_iff.1 h)

/-- Settles O31: the gait follows the hold reason set, and a reason's coming and going. -/
theorem gaitFollowsTheReasons : Obligations.GaitFollowsTheReasons := ⟨gaitFollowsTheSet, reasonsComeAndGo⟩

/-- Settles O32: STAND by the gait. -/
theorem standChangesTheGait : Obligations.StandChangesTheGait := by
  unfold Obligations.StandChangesTheGait
  intro h c s ha hc
  have ready_iff : ((noted s h 16 1).allStance && !(noted s h 16 1).anyStanceFailed && !(noted s h 16 1).marginUnsafe) =
      true ↔ (∀ l, (s.leg l).phase = .stance) ∧ ¬StanceFailed s ∧ ¬Unbalanced s := by
    rw [Bool.and_eq_true, Bool.and_eq_true, State.allStance_iff, Bool.not_eq_true', Bool.not_eq_true',
      ← Bool.not_eq_true, ← Bool.not_eq_true, State.anyStanceFailed_iff, State.marginUnsafe_iff, and_assoc]
    rfl
  have stands {t r} (ht : standEffect (noted s h 16 1) = gaitAnswer t r) :
      Gives (.gaitStand h) s (gaitAnswered t h 16 r) := gaitFrame_answered ha hc ht
  dsimp only
  refine ⟨fun hg hr => stands ?_, fun hg hr => stands ?_, fun hg => stands ?_, fun hg => stands ?_,
    fun hg hm => stands ?_, fun hg hm => ⟨fun hshort => stands ?_, fun hlong => stands ?_⟩⟩
  · refine (standEffect_off (s := noted s h 16 1) hg).trans ((if_pos (ready_iff.2 hr)).trans ?_)
    rw [State.leaveTo_other (s := noted s h 16 1) (by simp [noted, hg])]
    rfl
  · exact (standEffect_off (s := noted s h 16 1) hg).trans (if_neg fun h => hr (ready_iff.1 h))
  · have gait : (noted s h 16 1).seq.gait = .standing ∨ (noted s h 16 1).seq.gait = .stopping := hg
    unfold standEffect
    rcases gait with hg | hg
    all_goals rw [hg]
  · have gait : (noted s h 16 1).seq.gait = .halted := hg
    rw [standEffect, gait]
  · refine (standEffect_walking (s := noted s h 16 1) hg).trans ((if_pos (State.mustStop_iff.2 hm)).trans ?_)
    rw [State.leaveTo_walking (s := noted s h 16 1) hg]
    rfl
  all_goals
    refine (standEffect_walking (s := noted s h 16 1) hg).trans ((if_neg fun h => hm (State.mustStop_iff.1 h)).trans ?_)
    rw [State.standNow, State.leaveTo_walking (s := noted s h 16 1) hg]
  · refine congrArg (gaitAnswer · .done) (if_neg fun hover => ?_)
    obtain ⟨l, hp, ht, hq⟩ := State.withdrawalOverflows_iff.1 hover
    exact absurd (hshort l hp ht) (Nat.not_lt.2 hq)
  · exact congrArg (gaitAnswer · .done) (if_pos (State.withdrawalOverflows_iff.2 hlong))

/-- Settles O33: WALK and PAUSE by the gait. -/
theorem walkAndPauseSelectWalking : Obligations.WalkAndPauseSelectWalking := by
  unfold Obligations.WalkAndPauseSelectWalking
  intro h c s ha hc
  have walks {t r} (ht : walkEffect (noted s h 16 1) = gaitAnswer t r) :
      Gives (.gaitWalk h) s (gaitAnswered t h 16 r) := gaitFrame_answered ha hc ht
  have pauses {t r} (ht : pauseEffect (noted s h 16 1) = gaitAnswer t r) :
      Gives (.gaitPause h) s (gaitAnswered t h 16 r) := gaitFrame_answered ha hc ht
  dsimp only
  refine ⟨fun hg hst => walks ?_, fun hg hst => walks ?_, fun hg hp => walks ?_, fun hg hp => walks ?_,
    fun hg => walks ?_, fun hg => walks ?_, fun hg => pauses ?_, fun hw hh => pauses ?_⟩
  · exact (walkEffect_standing (s := noted s h 16 1) hg).trans (if_pos (State.allStance_iff.2 hst))
  · exact (walkEffect_standing (s := noted s h 16 1) hg).trans (if_neg fun h => hst (State.allStance_iff.1 h))
  · refine (walkEffect_holding (s := noted s h 16 1) hg).trans (congrArg (gaitAnswer · .done) ?_)
    refine (State.removeReason_walking (s := noted s h 16 1) (x := .pause) hp (.inr hg)).trans ?_
    rw [← hg]
    rfl
  · exact (walkEffect_holding (s := noted s h 16 1) hg).trans (congrArg (gaitAnswer · .done)
      (if_neg fun h => Bool.false_ne_true (hp.symm.trans h)))
  · have gait : (noted s h 16 1).seq.gait = .walking := hg
    rw [walkEffect, gait]
  · have gait : (noted s h 16 1).seq.gait = .off ∨ (noted s h 16 1).seq.gait = .stopping
        ∨ (noted s h 16 1).seq.gait = .halted := hg
    unfold walkEffect
    rcases gait with hg | hg | hg
    all_goals rw [hg]
  · exact (pauseEffect_walking (s := noted s h 16 1) hg).trans rfl
  · unfold pauseEffect
    cases hg : (noted s h 16 1).seq.gait with
    | walking => exact absurd hg hw
    | holding => exact absurd hg hh
    | off | standing | stopping | halted => rfl

/-- Settles O34: OFF by the gait and what is on its way, RESUME by its checks. -/
theorem offAndResumeLeaveTheGait : Obligations.OffAndResumeLeaveTheGait := by
  unfold Obligations.OffAndResumeLeaveTheGait
  intro h c s ha
  have moving_iff : ((noted s h 16 1).anyInFlight || (noted s h 16 1).seq.liftPending.isSome) = true ↔
      (∃ l, (s.leg l).phase.inFlight = true) ∨ s.seq.liftPending ≠ none := by
    rw [Bool.or_eq_true, State.anyInFlight_iff, Option.isSome_iff_ne_none]
    rfl
  dsimp only
  refine ⟨fun hc => ?_, fun hc => ?_⟩
  · have offs {t r} (ht : offEffect (noted s h 16 1) = gaitAnswer t r) :
        Gives (.gaitOff h) s (gaitAnswered t h 16 r) := gaitFrame_answered ha hc ht
    refine ⟨fun hg hm => offs ?_, fun hg hm => offs ?_, fun hg => offs ?_, fun hg => offs ?_⟩
    · exact (offEffect_standing (s := noted s h 16 1) hg).trans (if_pos (moving_iff.2 hm))
    · exact (offEffect_standing (s := noted s h 16 1) hg).trans (if_neg fun h => hm (moving_iff.1 h))
    · have gait : (noted s h 16 1).seq.gait = .off := hg
      rw [offEffect, gait]
    · have gait : (noted s h 16 1).seq.gait = .walking ∨ (noted s h 16 1).seq.gait = .holding
          ∨ (noted s h 16 1).seq.gait = .stopping := hg
      unfold offEffect
      rcases gait with hg | hg | hg
      all_goals rw [hg]
  · subst hc
    have resumes {t r} (ht : takeResume .supervisor (noted s h 17 0) = gaitAnswer t r) :
        Gives (.resume h) s (gaitAnswered t h 17 r) := frameEvent_answered ha rfl rfl (by simp) ht
    exact ⟨fun hfit => resumes (takeResume_fit (s := noted s h 17 0) hfit),
      fun hno => resumes (takeResume_unfit (s := noted s h 17 0) hno)⟩

/-- Settles O39: a confirmation moves the order, may end STOPPING, and evaluates while walking. -/
theorem confirmationAdvancesTheOrder : Obligations.ConfirmationAdvancesTheOrder := by
  unfold Obligations.ConfirmationAdvancesTheOrder
  intro s l flag following last pointed after
  have hfollowing : following = s.seq.pattern.next l := by
    dsimp only [following]
    cases s.seq.pattern <;> cases l <;> rfl
  have hafter (u : State) : after u = u.endStopping.evaluateIfWalking := by
    rw [State.evaluateIfWalking_eq, State.endStopping_eq]
  have hpointed : pointed = { s with seq := { s.seq with pointer := s.seq.pattern.next l } } := by
    rw [← hfollowing]
  have hlast : last ↔ l = s.seq.pattern.last := (Pattern.eq_last_iff _ _).symm
  refine ⟨fun hf => ?_, fun hf hl => ?_, fun hf hl => ?_⟩
  all_goals
    subst hf
    rw [hafter]
    refine congrArg (fun u => State.evaluateIfWalking (State.endStopping u)) ?_
  · rfl
  · rw [hpointed]
    exact if_neg fun h => hl (hlast.2 h)
  · rw [hpointed, ← stride_next]
    exact if_pos (hlast.1 hl)

/-- Settles O40: POSE by its ranges, and the pose timer's expiry. -/
theorem poseIsHeldUntilItGoesStale : Obligations.PoseIsHeldUntilItGoesStale := by
  unfold Obligations.PoseIsHeldUntilItGoesStale
  intro h c s x y pitch roll p
  simp only [← State.evaluateIfWalking_eq]
  refine ⟨fun ha hc hb => ?_, fun hs => congrArg Host.Outcome.next ?_, fun hr => congrArg Host.Outcome.next ?_⟩
  · have bad_iff : (isLowest x || isLowest y || !angleInRange pitch || !angleInRange roll) = true ↔
        Lowest x ∨ Lowest y ∨ pitch.toInt < -900 ∨ 900 < pitch.toInt ∨ roll.toInt < -900 ∨ 900 < roll.toInt := by
      simp only [Bool.or_eq_true, isLowest_iff, Bool.not_eq_true', angleInRange_eq_false_iff, or_assoc]
    refine ⟨fun hw => frameEvent_answered ha rfl rfl (by simp) ?_, fun hw => frameEvent_answered ha rfl rfl (by simp) ?_⟩
    · rw [takePose, permittedIdle_noted (notPerception_of_ne hc) hb, if_pos (bad_iff.2 hw)]
      rfl
    · rw [takePose, permittedIdle_noted (notPerception_of_ne hc) hb, if_neg fun hc => hw (bad_iff.1 hc)]
      rfl
  · exact if_neg fun h => Timer.isRunning_iff.1 h hs
  · exact (if_pos (Timer.isRunning_of_running hr)).trans State.evaluateIfWalking_eq

end Sys2Proof.Proofs
end

section
/-! SUPPORT. Watch terms and trips: the copies, the truths and the bits of a delivery, a trip's test by its mode, and what tests
of inert trips leave (R149 to R157). -/

namespace Sys2Proof.Machine

open Claims

variable {s t : State} {src src' : Source} {l m : Leg} {v : Int} {n : Fin 4}

/-! ### Copies and terms -/

theorem Source.mem_perLeg_iff :
    src ∈ [Source.normalLoad, .tangentialRatio, .overtemp, .slipCount] ↔ src.perLeg = true := by
  cases src <;> decide

theorem SourceCopies.read_write_same (c : SourceCopies) : (c.write src l v).read src l = v := by
  cases src with
  | normalLoad | tangentialRatio | overtemp | slipCount => exact PerLeg.get_set_self _ _ _
  | currentMargin | liftMargin | pitch | roll | candidateCount => rfl

theorem SourceCopies.read_write_leg (c : SourceCopies) (hp : src.perLeg = true) (hm : m ≠ l) :
    (c.write src l v).read src m = c.read src m := by
  cases src with
  | normalLoad | tangentialRatio | overtemp | slipCount => exact PerLeg.get_set_ne _ _ hm.symm
  | currentMargin | liftMargin | pitch | roll | candidateCount => cases hp

/-- Each source has its own copy. -/
theorem SourceCopies.read_write_source (c : SourceCopies) (hs : src' ≠ src) :
    (c.write src l v).read src' m = c.read src' m := by
  cases src with
  | currentMargin =>
    cases src' with
    | currentMargin => exact absurd rfl hs
    | _ => rfl
  | liftMargin =>
    cases src' with
    | liftMargin => exact absurd rfl hs
    | _ => rfl
  | normalLoad =>
    cases src' with
    | normalLoad => exact absurd rfl hs
    | _ => rfl
  | tangentialRatio =>
    cases src' with
    | tangentialRatio => exact absurd rfl hs
    | _ => rfl
  | pitch =>
    cases src' with
    | pitch => exact absurd rfl hs
    | _ => rfl
  | roll =>
    cases src' with
    | roll => exact absurd rfl hs
    | _ => rfl
  | overtemp =>
    cases src' with
    | overtemp => exact absurd rfl hs
    | _ => rfl
  | candidateCount =>
    cases src' with
    | candidateCount => exact absurd rfl hs
    | _ => rfl
  | slipCount =>
    cases src' with
    | slipCount => exact absurd rfl hs
    | _ => rfl

theorem SourceCopies.read_write_ne (c : SourceCopies) (h : src' ≠ src ∨ (src.perLeg = true ∧ m ≠ l)) :
    (c.write src l v).read src' m = c.read src' m := by
  by_cases hs : src' = src
  · obtain ⟨hp, hm⟩ := h.resolve_left (not_not.2 hs)
    subst hs
    exact c.read_write_leg hp hm
  · exact c.read_write_source hs

theorem WatchTerm.eval_eq (w : WatchTerm) (v : Int) : w.eval v = truthOf w v := by
  unfold WatchTerm.eval truthOf
  cases w.relation <;> rfl

theorem WatchTerm.watches_iff (w : WatchTerm) :
    w.watches src l = true ↔ w.source = src ∧ (src.perLeg = true → w.leg = l) := by
  cases hp : src.perLeg <;> simp [WatchTerm.watches, hp]

theorem WatchTerm.deliver_eq (w : WatchTerm) : w.deliver src l v =
    if w.source = src ∧ (src.perLeg = true → w.leg = l) then { w with truth := truthOf w v } else w := by
  simp only [WatchTerm.deliver, WatchTerm.watches_iff, WatchTerm.eval_eq]

theorem eightBits_getLsbD (f : Fin 8 → Bool) (n : Fin 8) : (eightBits f).getLsbD n.val = f n := by
  simp only [eightBits, bit, BitVec.getLsbD_append, BitVec.getLsbD_ofBool]
  fin_cases n <;> simp

theorem truthBits_getLsbD (terms : Vector WatchTerm 8) (n : Fin 8) :
    (truthBits terms).getLsbD n.val = terms[n].truth := eightBits_getLsbD (fun n => terms[n].truth) n

theorem changedTerms_getLsbD (before after : Vector WatchTerm 8) (n : Fin 8) :
    (changedTerms before after).getLsbD n.val = (before[n].truth != after[n].truth) :=
  eightBits_getLsbD (fun n => before[n].truth != after[n].truth) n

/-! ### Masks -/

theorem mask_ext {a b : BitVec 8} : a = b ↔ ∀ n : Fin 8, a.getLsbD n.val = b.getLsbD n.val :=
  ⟨fun h _ => h ▸ rfl, fun h => BitVec.eq_of_getLsbD_eq fun i hi => h ⟨i, hi⟩⟩

theorem mask_and_ne_zero {a b : BitVec 8} :
    (a &&& b != 0) = true ↔ ∃ n : Fin 8, a.getLsbD n.val = true ∧ b.getLsbD n.val = true := by
  rw [bne_iff_ne, ne_eq, mask_ext]
  simp

theorem mask_and_eq_left {a b : BitVec 8} :
    ((a &&& b) == a) = true ↔ ∀ n : Fin 8, a.getLsbD n.val = true → b.getLsbD n.val = true := by
  rw [beq_iff_eq, mask_ext]
  simp only [BitVec.getLsbD_and]
  exact forall_congr' fun n => by cases a.getLsbD n.val <;> cases b.getLsbD n.val <;> simp

/-! ### Tests -/

theorem Trip.test_inert {w : Trip} {changed truths : BitVec 8} (h : w.state = .disarmed ∨ w.state = .fired) :
    w.test changed truths = (w, false) := by
  unfold Trip.test
  rcases h with h | h
  all_goals
    cases hm : w.mode with
    | all | any => simp [h]
    | sequence => simp [h]

theorem Trip.combination_any {w : Trip} {truths : BitVec 8} (h : w.mode = .any) : w.combination truths = true ↔
    ∃ n : Fin 8, w.mask.getLsbD n.val = true ∧ truths.getLsbD n.val = true := by
  rw [← mask_and_ne_zero, Trip.combination, h]

theorem Trip.combination_all {w : Trip} {truths : BitVec 8} (h : w.mode = .all) : w.combination truths = true ↔
    w.mask ≠ 0 ∧ ∀ n : Fin 8, w.mask.getLsbD n.val = true → truths.getLsbD n.val = true := by
  rw [← mask_and_eq_left, ← bne_iff_ne, ← Bool.and_eq_true, Trip.combination, h]

/-- An ALL or ANY trip stands at its test, and fires where it is ARMED, touched and its combination is true (R153, R154). -/
theorem Trip.test_combined {w : Trip} {changed truths : BitVec 8} (hm : w.mode ≠ .sequence) :
    (w.test changed truths).1 = w
    ∧ ((w.test changed truths).2 = true ↔ w.state = .armed
        ∧ (∃ n : Fin 8, w.mask.getLsbD n.val = true ∧ changed.getLsbD n.val = true)
        ∧ (w.mode = .any → ∃ n : Fin 8, w.mask.getLsbD n.val = true ∧ truths.getLsbD n.val = true)
        ∧ (w.mode = .all → ∀ n : Fin 8, w.mask.getLsbD n.val = true → truths.getLsbD n.val = true)) := by
  have test : w.test changed truths
      = (w, w.state == .armed && (w.mask &&& changed) != 0 && w.combination truths) := by
    cases h : w.mode with
    | all | any => simp only [Trip.test, h]
    | sequence => exact absurd h hm
  rw [test]
  refine ⟨rfl, ?_⟩
  simp only [Bool.and_eq_true, beq_iff_eq, mask_and_ne_zero, and_assoc]
  refine and_congr_right fun _ => and_congr_right fun ⟨n, hn, _⟩ => ?_
  cases h : w.mode with
  | any => simp [Trip.combination_any h]
  | all =>
    have nonzero : w.mask ≠ 0 := fun h0 => by simp [h0] at hn
    exact (Trip.combination_all h).trans
      ⟨fun all => ⟨fun hany => absurd hany (by decide), fun _ => all.2⟩, fun all => ⟨nonzero, all.2 rfl⟩⟩
  | sequence => exact absurd h hm

theorem State.setTrip_self (s : State) (n : Fin 4) : s.setTrip n (s.trip n) = s := by
  have same : s.trips.trips.set n s.trips.trips[n] = s.trips.trips := Vector.set_getElem_self _
  rw [State.setTrip, State.trip, same]
  rfl

theorem State.testTrip_inert {changed truths : BitVec 8} {e : Bool}
    (h : (s.trip n).state = .disarmed ∨ (s.trip n).state = .fired) : s.testTrip e changed truths n = s := by
  rw [State.testTrip, Trip.test_inert h]
  exact (if_neg Bool.false_ne_true).trans (State.setTrip_self s n)

theorem State.testTrips_inert {changed truths : BitVec 8} {e : Bool}
    (h : ∀ n, (s.trip n).state = .disarmed ∨ (s.trip n).state = .fired) : s.testTrips e changed truths = s := by
  simp only [State.testTrips, List.foldl, State.testTrip_inert (h _)]

theorem State.recountOverflow_same_gait (h : t.seq.gait = s.seq.gait) : s.recountOverflow t = t := by
  refine if_neg fun ⟨hs, ht, _⟩ => hs (h ▸ ht)

/-- A delivery where every trip is DISARMED or FIRED is the copy and the terms that watch it (R150, R151). -/
theorem State.deliver_inert {e : Bool} (h : ∀ n, (s.trip n).state = .disarmed ∨ (s.trip n).state = .fired) :
    s.deliver e src l v = s.setTrips { s.trips with
      copies := s.trips.copies.write src l v, terms := s.trips.terms.map (WatchTerm.deliver src l v) } := by
  have tested : s.deliverOnly e src l v = s.setTrips { s.trips with
      copies := s.trips.copies.write src l v, terms := s.trips.terms.map (WatchTerm.deliver src l v) } :=
    State.testTrips_inert h
  rw [State.deliver, tested]
  exact State.recountOverflow_same_gait rfl

/-! ### The candidate count -/

theorem slopeTangent_eq : ∀ grade : BitVec 4, slopeTangent grade =
    ([0, 22, 45, 69, 93, 119, 148, 179, 215, 256, 305, 366, 443] : List Nat)[grade.toNat]? := by
  decide

/-- The record at an index counts as a candidate (R150). -/
def State.countsSlot (s : State) (i : RecordIndex) : Bool :=
  match s.slot i with
  | some r => r.state == .candidate && slopePasses r.content && s.confidencePasses r.content
  | none => false

theorem State.countsSlot_iff {i : RecordIndex} : s.countsSlot i = true ↔
    ∃ r, s.slot i = some r ∧ r.state = .candidate ∧ slopePasses r.content = true
      ∧ s.param 13 ≤ (r.content.confidence.toNat : Int) := by
  unfold State.countsSlot
  cases s.slot i with
  | none => simp
  | some r => simp [State.confidencePasses_iff, and_assoc]

theorem State.candidateCount_eq (s : State) : s.candidateCount = (allIndexes.filter s.countsSlot).length := by
  have slots : s.store.slots.toList = allIndexes.map s.slot :=
    List.ext_getElem (by simp [allIndexes]) fun k h1 h2 => by simp [allIndexes, State.slot]
  rw [State.candidateCount, slots, List.filter_map, List.length_map]
  rfl

/-! ### TERM -/

theorem sourceOf_eq_none {k : Nat} (h : 8 < k) : sourceOf k = none := by
  obtain ⟨j, rfl⟩ : ∃ j, k = j + 9 := ⟨k - 9, by omega⟩
  rfl

theorem relationOf_eq_none {k : Nat} (h : 1 < k) : relationOf k = none := by
  obtain ⟨j, rfl⟩ : ∃ j, k = j + 2 := ⟨k - 2, by omega⟩
  rfl

theorem relationOf_eq_some {k : Nat} {rel : Relation} (h : k = match rel with | .below => 0 | .atOrAbove => 1) :
    relationOf k = some rel := by
  subst h
  cases rel <;> rfl

theorem termConfig_none {number enable source leg relation : Word}
    (h : 7 < number.toNat ∨ 1 < enable.toNat ∨ 8 < source.toNat ∨ 3 < leg.toNat ∨ 1 < relation.toNat) :
    termConfig number enable source leg relation = none := by
  unfold termConfig
  rcases h with h | h | h | h | h
  · rw [indexOf_eq_none (bound := 8) h]
  · rw [indexOf_eq_none (bound := 2) h]
    split <;> simp_all
  · rw [sourceOf_eq_none h]
    split <;> simp_all
  · rw [legOf_eq_none h]
    split <;> simp_all
  · rw [relationOf_eq_none h]
    split <;> simp_all

theorem termConfig_some {number enable source leg relation : Word} {n : Fin 8} {e : Bool} {rel : Relation}
    (hn : number.toNat = n.val) (he : enable.toNat = e.toNat) (hs : sourceOf source.toNat = some src)
    (hl : LegWord leg l) (hr : relation.toNat = match rel with | .below => 0 | .atOrAbove => 1) :
    termConfig number enable source leg relation = some (n, e, src, l, rel) := by
  have flag : indexOf 2 enable.toNat = some ⟨e.toNat, by cases e <;> decide⟩ := indexOf_eq_some _ he
  simp only [termConfig, indexOf_eq_some n hn, flag, hs, legOf_of_legWord hl, relationOf_eq_some hr]
  cases e <;> rfl

end Sys2Proof.Machine
end

section
namespace Sys2Proof.Proofs

open Machine Claims

/-- Settles O44: a delivery with every trip inert, and TERM. -/
theorem termsFollowTheirSources : Obligations.TermsFollowTheirSources := by
  unfold Obligations.TermsFollowTheirSources
  refine ⟨fun s e src l v hinert => ?_, fun h s number enable source leg relation threshold ha => ⟨fun hbad => ?_,
    fun n en src l rel hn he hs hl hr => ?_⟩⟩
  · dsimp only
    simp only [State.deliver_inert hinert, Source.mem_perLeg_iff]
    refine ⟨rfl, SourceCopies.read_write_same _, fun src' m h => SourceCopies.read_write_ne _ h, fun n => ?_⟩
    exact (Vector.getElem_map _ n.isLt).trans (WatchTerm.deliver_eq _)
  · refine frameEvent_answered ha rfl rfl (by simp) ?_
    rw [takeTerm, permitted_of_eq_true rfl, termConfig_none hbad]
    rfl
  · refine frameEvent_answered ha rfl rfl (by simp) ?_
    rw [takeTerm, permitted_of_eq_true rfl, termConfig_some hn he hs hl hr]
    refine congrArg (answer · .done) ?_
    simp only [State.configureTerm, WatchTerm.eval_eq]
    rfl

theorem testsPrimeAndFire : TestsPrimeAndFire := by
  refine ⟨fun t changed truths => ?_, fun s n => ⟨fun ha => ?_, fun ha => ?_, fun ha => ?_⟩⟩
  · dsimp only
    refine ⟨fun hm => Trip.test_combined hm, fun hm hst hf => ?_, fun hm hst hf => ?_, fun hm hst => ?_,
      fun hst => Trip.test_inert hst⟩
    · simp only [Trip.test, hm, hst, hf, Bool.and_self, if_true]
    · rw [← Bool.and_eq_true, Bool.not_eq_true] at hf
      simp only [Trip.test, hm, hst, hf, Bool.false_eq_true, if_false]
    · simp only [Trip.test, hm, hst, Bool.and_eq_true, true_and]
  all_goals
    simp only [State.fireTrip, ha]
    rfl

theorem firingWithinAnEvaluation : FiringWithinAnEvaluation := by
  intro s n
  refine ⟨fun ha => ?_, fun ha => ?_⟩
  · cases hact : (s.trip n).action with
    | hold => exact absurd hact ha
    | attention | halt => simp only [State.fireTrip, hact]
  · simp only [State.fireTrip, ha]
    rfl

theorem deliveriesTestTheTripsInOrder : DeliveriesTestTheTripsInOrder := by
  intro s e src l v
  simp only [Source.mem_perLeg_iff]
  refine ⟨s.trips.copies.write src l v, s.trips.terms.map (WatchTerm.deliver src l v),
    changedTerms s.trips.terms (s.trips.terms.map (WatchTerm.deliver src l v)),
    truthBits (s.trips.terms.map (WatchTerm.deliver src l v)),
    SourceCopies.read_write_same _, fun src' m h => SourceCopies.read_write_ne _ h, fun n =>
      ⟨(Vector.getElem_map _ n.isLt).trans (WatchTerm.deliver_eq _), truthBits_getLsbD _ n,
        (changedTerms_getLsbD _ _ n).trans bne_comm⟩, ?_⟩
  refine ⟨rfl, fun hno => ?_, fun ho => ?_⟩
  · refine if_neg fun ⟨hs, ht, hw⟩ => hno ⟨hs, ht, State.withdrawalOverflows_iff.1 hw⟩
  · obtain ⟨hs, ht, hw⟩ := ho
    exact if_pos ⟨hs, ht, State.withdrawalOverflows_iff.2 hw⟩

theorem recountsDeliverTheCandidates : RecountsDeliverTheCandidates := by
  refine ⟨fun c => ?_, fun s => ?_⟩
  · rw [slopePasses, slopeTangent_eq]
    cases ([0, 22, 45, 69, 93, 119, 148, 179, 215, 256, 305, 366, 443] : List Nat)[c.slope.toNat]? <;> simp
  · refine ⟨allIndexes.filter s.countsSlot, (List.nodup_finRange 40).filter _, fun i => ?_, ?_, ?_⟩
    · rw [List.mem_filter, State.countsSlot_iff]
      exact and_iff_right (List.mem_finRange i)
    · exact s.candidateCount_eq
    · rw [State.recount, s.candidateCount_eq]

/-- Settles O45: a trip's test and firing, the tests of a delivery in order, and the recount. -/
theorem tripsFireOnTheirTerms : Obligations.TripsFireOnTheirTerms :=
  ⟨testsPrimeAndFire, firingWithinAnEvaluation, deliveriesTestTheTripsInOrder, recountsDeliverTheCandidates⟩

end Sys2Proof.Proofs
end

section
/-! SUPPORT. The trip unit's commands, the choice of VECTOR, and the parameter and friction commands (R157, R162 to R166, R186,
R187). -/

namespace Sys2Proof.Machine

open Claims

variable {s t : State} {n : Fin 4} {w : Trip} {mode action terms window : Word} {a : TripAction}

/-! ### TRIP -/

theorem State.tripReport_eq (s : State) : s.tripReport = tripTold s := by
  have fired : (s.trips.trips.toList.any fun t => t.state == .fired && t.action == .hold) = true
      ↔ ∃ n : Fin 4, (s.trip n).state = .fired ∧ (s.trip n).action = .hold := by
    simp only [List.any_eq_true, Bool.and_eq_true, beq_iff_eq]
    constructor
    · rintro ⟨v, hv, h⟩
      obtain ⟨i, hi, rfl⟩ := Vector.mem_iff_getElem.1 (Vector.mem_toList_iff.1 hv)
      exact ⟨⟨i, hi⟩, h⟩
    · rintro ⟨n, h⟩
      exact ⟨s.trip n, Vector.mem_toList_iff.2 (Vector.getElem_mem n.isLt), h⟩
  simp only [State.tripReport, tripTold, fired]

theorem tripModeOf_eq_none {k : Nat} (h : 2 < k) : tripModeOf k = none := by
  obtain ⟨j, rfl⟩ : ∃ j, k = j + 3 := ⟨k - 3, by omega⟩
  rfl

theorem tripActionOf_eq_none {k : Nat} (h : 2 < k) : tripActionOf k = none := by
  obtain ⟨j, rfl⟩ : ∃ j, k = j + 3 := ⟨k - 3, by omega⟩
  rfl

theorem tripConfig_none_of_range (h : 2 < mode.toNat ∨ 2 < action.toNat) : tripConfig mode action terms window = none := by
  unfold tripConfig
  rcases h with h | h
  · rw [tripModeOf_eq_none h]
  · rw [tripActionOf_eq_none h]
    split <;> simp_all

theorem tripConfig_none_of_terms (hm : mode.toNat = 2)
    (h : 7 < (terms.extractLsb' 8 8).toNat ∨ 7 < (terms.extractLsb' 0 8).toNat) :
    tripConfig mode action terms window = none := by
  have sequence : tripModeOf mode.toNat = some .sequence := by rw [hm]; rfl
  unfold tripConfig
  rw [sequence]
  cases tripActionOf action.toNat with
  | none => rfl
  | some a =>
    rcases h with h | h
    · simp only [indexOf_eq_none (bound := 8) h]
    · cases indexOf 8 (terms.extractLsb' 8 8).toNat <;> simp only [indexOf_eq_none (bound := 8) h]

theorem tripConfig_none_of_window (hm : mode.toNat = 2) (h : window.toNat < 10 ∨ 10000 < window.toNat) :
    tripConfig mode action terms window = none := by
  have sequence : tripModeOf mode.toNat = some .sequence := by rw [hm]; rfl
  have outside : ¬(10 ≤ window.toNat ∧ window.toNat ≤ 10000) := by omega
  unfold tripConfig
  rw [sequence]
  cases tripActionOf action.toNat with
  | none => rfl
  | some a =>
    cases indexOf 8 (terms.extractLsb' 8 8).toNat with
    | none => rfl
    | some f =>
      cases indexOf 8 (terms.extractLsb' 0 8).toNat with
      | none => rfl
      | some g => exact if_neg outside

theorem tripConfig_combined (ha : tripActionOf action.toNat = some a) (hm : mode.toNat ≤ 1) :
    tripConfig mode action terms window = some ⟨if mode.toNat = 0 then .all else .any, terms.extractLsb' 0 8, 0, 0, 10, a,
      .disarmed, .stopped⟩ := by
  have cases01 : mode.toNat = 0 ∨ mode.toNat = 1 := by omega
  unfold tripConfig
  rw [ha]
  rcases cases01 with h | h <;> rw [h] <;> rfl

theorem tripConfig_sequence (ha : tripActionOf action.toNat = some a) (hm : mode.toNat = 2)
    (ht : ¬(7 < (terms.extractLsb' 8 8).toNat ∨ 7 < (terms.extractLsb' 0 8).toNat))
    (hw : ¬(window.toNat < 10 ∨ 10000 < window.toNat)) :
    ∃ f g : Fin 8, f.val = (terms.extractLsb' 8 8).toNat ∧ g.val = (terms.extractLsb' 0 8).toNat
      ∧ tripConfig mode action terms window = some ⟨.sequence, 0, f, g, window.toNat, a, .disarmed, .stopped⟩ := by
  have hf : (terms.extractLsb' 8 8).toNat < 8 := by omega
  have hg : (terms.extractLsb' 0 8).toNat < 8 := by omega
  have inside : 10 ≤ window.toNat ∧ window.toNat ≤ 10000 := by omega
  have sequence : tripModeOf mode.toNat = some .sequence := by rw [hm]; rfl
  refine ⟨⟨_, hf⟩, ⟨_, hg⟩, rfl, rfl, ?_⟩
  unfold tripConfig
  simp only [sequence, ha, indexOf_eq_some ⟨_, hf⟩ rfl, indexOf_eq_some ⟨_, hg⟩ rfl]
  exact if_pos inside

/-- What ARM's evaluation reads of an ALL or ANY trip (R153, R157). -/
theorem Trip.combination_iff {truths : BitVec 8} (hm : w.mode ≠ .sequence) : w.combination truths = true ↔
    (w.mode = .any ∧ ∃ j : Fin 8, w.mask.getLsbD j.val = true ∧ truths.getLsbD j.val = true)
      ∨ (w.mode = .all ∧ w.mask ≠ 0 ∧ ∀ j : Fin 8, w.mask.getLsbD j.val = true → truths.getLsbD j.val = true) := by
  cases h : w.mode with
  | any => simp [Trip.combination_any h]
  | all => simp [Trip.combination_all h]
  | sequence => exact absurd h hm

theorem State.armTrip_combined (hm : (s.trip n).mode ≠ .sequence) : s.armTrip n =
    if (s.trip n).combination (truthBits s.trips.terms) then
      (s.setTrip n { s.trip n with state := .armed, timer := .stopped }).fireTrip false n
    else s.setTrip n { s.trip n with state := .armed, timer := .stopped } := by
  unfold State.armTrip
  cases h : (s.trip n).mode with
  | all | any => simp only [h, Trip.combination]
  | sequence => exact absurd h hm

theorem State.armTrip_sequence (hm : (s.trip n).mode = .sequence) : s.armTrip n =
    if s.trips.terms[(s.trip n).first].truth then
      if s.trips.terms[(s.trip n).second].truth then
        (s.setTrip n { s.trip n with state := .primed, timer := .running (s.trip n).window }).fireTrip false n
      else s.setTrip n { s.trip n with state := .primed, timer := .running (s.trip n).window }
    else s.setTrip n { s.trip n with state := .armed, timer := .stopped } := by
  simp only [State.armTrip, hm, truthBits_getLsbD]

theorem Trip.combination_truths_iff (hm : w.mode ≠ .sequence) : w.combination (truthBits s.trips.terms) = true ↔
    (w.mode = .any ∧ ∃ j : Fin 8, w.mask.getLsbD j.val = true ∧ s.trips.terms[j].truth = true)
      ∨ (w.mode = .all ∧ w.mask ≠ 0 ∧ ∀ j : Fin 8, w.mask.getLsbD j.val = true → s.trips.terms[j].truth = true) := by
  simp only [Trip.combination_iff hm, truthBits_getLsbD]

section
variable {trip operation : Word}

theorem takeTrip_of_no_trip (h : 3 < trip.toNat) :
    takeTrip trip operation mode action terms window .supervisor s = refuse s .outOfRange := by
  rw [takeTrip, permitted_of_eq_true rfl, indexOf_eq_none (bound := 4) h]

theorem takeTrip_of_no_operation (h : 2 < operation.toNat) :
    takeTrip trip operation mode action terms window .supervisor s = refuse s .outOfRange := by
  rw [takeTrip, permitted_of_eq_true rfl]
  generalize operation.toNat = k at h
  cases indexOf 4 trip.toNat with
  | none => rfl
  | some n =>
    match k, h with
    | k + 3, _ => rfl

theorem takeTrip_configure (hn : trip.toNat = n.val) :
    takeTrip trip 0 mode action terms window .supervisor s = configureEffect n mode action terms window s := by
  rw [takeTrip, permitted_of_eq_true rfl, indexOf_eq_some n hn]
  rfl

theorem takeTrip_arm (hn : trip.toNat = n.val) :
    takeTrip trip 1 mode action terms window .supervisor s = armEffect n s := by
  rw [takeTrip, permitted_of_eq_true rfl, indexOf_eq_some n hn]
  rfl

theorem takeTrip_disarm (hn : trip.toNat = n.val) :
    takeTrip trip 2 mode action terms window .supervisor s = disarmEffect n s := by
  rw [takeTrip, permitted_of_eq_true rfl, indexOf_eq_some n hn]
  rfl

theorem configureEffect_none (h : tripConfig mode action terms window = none) :
    configureEffect n mode action terms window s = refuse s .outOfRange := by
  rw [configureEffect, h]

theorem configureEffect_some (h : tripConfig mode action terms window = some w) :
    configureEffect n mode action terms window s = answer (tripTold (s.setTrip n w)) .done := by
  rw [configureEffect, h, ← State.tripReport_eq]

theorem armEffect_standing (h : (s.trip n).state = .armed ∨ (s.trip n).state = .primed) :
    armEffect n s = answer (tripTold s) .done := by
  unfold armEffect
  rcases h with h | h <;> rw [h, ← State.tripReport_eq]

theorem armEffect_evaluated (h : (s.trip n).state = .disarmed ∨ (s.trip n).state = .fired) :
    armEffect n s = answer (tripTold (s.recountOverflow (s.armTrip n))) .done := by
  unfold armEffect
  rcases h with h | h <;> rw [h, ← State.tripReport_eq]

end

/-! ### VECTOR -/

/-- The choice among nodes in ascending order: none where none may be presented, else one of the highest priority and, among
those, of the lowest number (R166). -/
def State.MostUrgent (s : State) (ns : List NodeNumber) (best : Option NodeNumber) : Prop :=
  match best with
  | none => ∀ n ∈ ns, (s.node n).presentable = false
  | some m => m ∈ ns ∧ (s.node m).presentable = true ∧ ∀ n ∈ ns, (s.node n).presentable = true →
      (s.node n).priority < (s.node m).priority ∨ ((s.node n).priority = (s.node m).priority ∧ m ≤ n)

theorem State.MostUrgent.moreUrgent {ns : List NodeNumber} {best : Option NodeNumber} {j : NodeNumber}
    (h : s.MostUrgent ns best) (habove : ∀ m ∈ ns, m ≤ j) : s.MostUrgent (ns ++ [j]) (s.moreUrgent best j) := by
  have last : j ∈ ns ++ [j] := List.mem_append.2 (.inr (List.mem_singleton_self j))
  unfold State.moreUrgent
  by_cases hj : (s.node j).presentable = true
  · rw [if_pos hj]
    cases best with
    | none =>
      refine ⟨last, hj, fun n hn hp => ?_⟩
      rcases List.mem_append.1 hn with hn | hn
      · exact absurd ((h n hn).symm.trans hp) Bool.false_ne_true
      · rw [List.mem_singleton.1 hn]
        exact .inr ⟨rfl, le_refl _⟩
    | some m =>
      obtain ⟨hm, hmp, hmost⟩ := h
      by_cases hlt : (s.node m).priority < (s.node j).priority
      · simp only [if_pos hlt]
        refine ⟨last, hj, fun n hn hp => ?_⟩
        rcases List.mem_append.1 hn with hn | hn
        · rcases hmost n hn hp with hlow | ⟨heq, -⟩
          · exact .inl (BitVec.lt_trans hlow hlt)
          · exact .inl (heq ▸ hlt)
        · rw [List.mem_singleton.1 hn]
          exact .inr ⟨rfl, le_refl _⟩
      · simp only [if_neg hlt]
        refine ⟨List.mem_append.2 (.inl hm), hmp, fun n hn hp => ?_⟩
        rcases List.mem_append.1 hn with hn | hn
        · exact hmost n hn hp
        · rw [List.mem_singleton.1 hn]
          by_cases he : (s.node j).priority = (s.node m).priority
          · exact .inr ⟨he, habove m hm⟩
          · exact .inl (BitVec.lt_of_le_ne (BitVec.not_lt.1 hlt) he)
  · rw [if_neg hj]
    rw [Bool.not_eq_true] at hj
    cases best with
    | none =>
      intro n hn
      rcases List.mem_append.1 hn with hn | hn
      · exact h n hn
      · rwa [List.mem_singleton.1 hn]
    | some m =>
      obtain ⟨hm, hmp, hmost⟩ := h
      refine ⟨List.mem_append.2 (.inl hm), hmp, fun n hn hp => ?_⟩
      rcases List.mem_append.1 hn with hn | hn
      · exact hmost n hn hp
      · rw [List.mem_singleton.1 hn, hj] at hp
        cases hp

theorem State.mostUrgent_foldl (s : State) (ns : List NodeNumber) (hs : ns.Pairwise (· ≤ ·)) :
    s.MostUrgent ns (ns.foldl s.moreUrgent none) := by
  induction ns using List.reverseRecOn with
  | nil => exact fun _ h => absurd h List.not_mem_nil
  | append_singleton ns j ih =>
    obtain ⟨hs, -, habove⟩ := List.pairwise_append.1 hs
    rw [List.foldl_append, List.foldl_cons, List.foldl_nil]
    exact (ih hs).moreUrgent fun m hm => habove m hm j (List.mem_singleton_self j)

theorem State.chosenNode_mostUrgent (s : State) : s.MostUrgent [0, 1, 2, 3, 4, 5, 6, 7] s.chosenNode :=
  s.mostUrgent_foldl _ (by decide)

theorem NodeNumber.mem_all (n : NodeNumber) : n ∈ ([0, 1, 2, 3, 4, 5, 6, 7] : List NodeNumber) := by
  revert n
  decide

theorem State.chosenNode_eq_none (h : ∀ n, (s.node n).presentable = false) : s.chosenNode = none := by
  have chosen := s.chosenNode_mostUrgent
  cases hc : s.chosenNode with
  | none => rfl
  | some m =>
    rw [hc] at chosen
    exact absurd ((h m).symm.trans chosen.2.1) Bool.false_ne_true

theorem State.chosenNode_eq_some {n : NodeNumber} (hn : (s.node n).presentable = true)
    (hmost : ∀ m, (s.node m).presentable = true →
      (s.node m).priority < (s.node n).priority ∨ ((s.node m).priority = (s.node n).priority ∧ n ≤ m)) :
    s.chosenNode = some n := by
  have chosen := s.chosenNode_mostUrgent
  cases hc : s.chosenNode with
  | none =>
    rw [hc] at chosen
    exact absurd ((chosen n (NodeNumber.mem_all n)).symm.trans hn) Bool.false_ne_true
  | some m =>
    rw [hc] at chosen
    obtain ⟨-, hm, least⟩ := chosen
    refine congrArg some ?_
    rcases least n (NodeNumber.mem_all n) hn with hlt | ⟨heq, hle⟩
    · rcases hmost m hm with hlt' | ⟨heq', -⟩
      · exact absurd (BitVec.lt_trans hlt hlt') (BitVec.lt_irrefl _)
      · exact absurd (heq' ▸ hlt) (BitVec.lt_irrefl _)
    · rcases hmost m hm with hlt' | ⟨-, hle'⟩
      · exact absurd (heq ▸ hlt') (BitVec.lt_irrefl _)
      · exact le_antisymm hle hle'

theorem State.clearNode_eq (s : State) (n : NodeNumber) (v : Node) : s.clearNode n v = s.setNode n (afterClear s n v) := by
  unfold State.clearNode afterClear
  split <;> rfl

theorem Node.presentable_iff_ne {v : Node} :
    v.presentable = true ↔ v.pending ≠ none ∧ v.enabled = true ∧ v.priority ≠ 0 := by
  simp [Node.presentable, Option.isSome_iff_ne_none, and_assoc]

theorem takeAttention_of_bad {node priority flags : Word} (h : 7 < node.toNat ∨ 15 < priority.toNat) :
    takeAttention node priority flags .supervisor s = refuse s .outOfRange := by
  rw [takeAttention, permitted_of_eq_true rfl]
  rcases h with h | h
  · rw [indexOf_eq_none (bound := 8) h]
  · rw [indexOf_eq_none (bound := 16) h]
    cases indexOf 8 node.toNat <;> rfl

theorem Node.pend_eq (v : Node) (d : Detail) :
    v.pend d = { v with pending := some (v.pending.getD d), more := v.more || v.pending.isSome } := by
  unfold Node.pend
  cases v.pending <;> simp

theorem takeVector_none {c : Client} (hc : notPerception c = true) (h : s.chosenNode = none) :
    takeVector c s = doneWith s vectorNone := by
  rw [takeVector, permitted_of_eq_true hc, h]

theorem takeVector_some {c : Client} {n : NodeNumber} (hc : notPerception c = true) (h : s.chosenNode = some n) :
    takeVector c s = doneWith (s.setNode n (afterClear s n (s.node n))) (vectorWords n (s.node n)) := by
  rw [takeVector, permitted_of_eq_true hc, h, ← State.clearNode_eq]

theorem takeAttention_attend {node priority flags : Word} {n : NodeNumber} {p : BitVec 4} {w : Node}
    (hn : node.toNat = n.val) (hp : priority.toNat = p.toNat)
    (hw : s.attend n p (flags.getLsbD 0) (flags.getLsbD 1) (flags.getLsbD 2) = s.setNode n w) :
    takeAttention node priority flags .supervisor s = doneWith (s.setNode n w) (attentionWords n w) := by
  have word : BitVec.ofFin ⟨priority.toNat, hp ▸ p.isLt⟩ = p := BitVec.eq_of_toNat_eq hp
  rw [takeAttention_eq hn (hp ▸ p.isLt), word, hw]
  dsimp only
  rw [State.node_setNode_self]

/-! ### SETPARAM and FRICTION -/

theorem paramRow_range : ∀ n : ParamNumber, ((paramRow n).1, (paramRow n).2.1) = paramRanges.getD n.val (0, 0) := by
  decide

theorem State.paramBad_iff {n : ParamNumber} {v : Int} : s.paramBad n v = true ↔
    v < (paramRanges.getD n.val (0, 0)).1 ∨ (paramRanges.getD n.val (0, 0)).2 < v
      ∨ (n = 2 ∧ v ≤ s.param 3) ∨ (n = 3 ∧ s.param 2 ≤ v) := by
  rw [← paramRow_range]
  simp [State.paramBad, or_assoc]

theorem takeFriction_of_bad {u v w : Word} (h : 7 < u.toNat ∨ 511 < v.toNat ∨ 64 < w.toNat) :
    takeFriction u v w .supervisor s = refuse s .outOfRange := by
  rw [takeFriction, permitted_of_eq_true rfl]
  rcases h with h | h
  · rw [indexOf_eq_none (bound := 8) h]
  · cases indexOf 8 u.toNat with
    | none => rfl
    | some n => exact if_pos (by simpa using h)

theorem takeFriction_of_good {u v w : Word} {n : Fin 8} (hn : u.toNat = n.val) (hv : v.toNat ≤ 511) (hw : w.toNat ≤ 64) :
    takeFriction u v w .supervisor s = doneWith (s.writeFriction n ⟨v.setWidth 9, w.setWidth 7⟩) [u, v, w] := by
  have coefficient : BitVec.ofNat 9 v.toNat = v.setWidth 9 := rfl
  have derate : BitVec.ofNat 7 w.toNat = w.setWidth 7 := rfl
  have inside : (511 < v.toNat || 64 < w.toNat) = false := by simp [hv, hw]
  rw [takeFriction, permitted_of_eq_true rfl, indexOf_eq_some n hn, inside]
  rfl

theorem State.recountIf_beq {n k : ParamNumber} : s.recountIf (n == k) = if n = k then s.recount else s := by
  simp only [State.recountIf, beq_iff_eq]

end Sys2Proof.Machine
end

section
namespace Sys2Proof.Proofs

open Machine Claims

/-- Settles O46: TRIP by its operation, and the window's expiry. -/
theorem tripOperationsMoveTheTrip : Obligations.TripOperationsMoveTheTrip := by
  unfold Obligations.TripOperationsMoveTheTrip
  refine ⟨fun h s trip operation mode action terms window ha => ?_, fun s n => ⟨fun hp => ?_, fun hp => ?_⟩⟩
  · refine ⟨fun hbad => ⟨?_, ?_, ?_⟩, fun hbad => ?_, fun n hn => ⟨fun hbad => ?_, fun a hact hm => ?_,
      fun a hact hm ht hw => ?_, ?_, fun hst => ?_, fun hst => ?_⟩⟩
    · refine frameEvent_answered ha rfl rfl (by simp) ?_
      exact takeTrip_of_no_trip hbad
    · refine frameEvent_answered ha rfl rfl (by simp) ?_
      exact takeTrip_of_no_trip hbad
    · refine frameEvent_answered ha rfl rfl (by simp) ?_
      exact takeTrip_of_no_trip hbad
    · refine frameEvent_answered ha rfl rfl (by simp) ?_
      exact takeTrip_of_no_operation hbad
    · refine frameEvent_answered ha rfl rfl (by simp) ?_
      refine (takeTrip_configure hn).trans (configureEffect_none ?_)
      rcases hbad with hm | ha | ⟨hm, ht | hw⟩
      · exact tripConfig_none_of_range (.inl hm)
      · exact tripConfig_none_of_range (.inr ha)
      · exact tripConfig_none_of_terms hm ht
      · exact tripConfig_none_of_window hm hw
    · exact ⟨_, frameEvent_answered ha rfl rfl (by simp)
        ((takeTrip_configure hn).trans (configureEffect_some (tripConfig_combined hact hm))), rfl, rfl, rfl, rfl, rfl⟩
    · obtain ⟨f, g, hf, hg, hconfig⟩ := tripConfig_sequence hact hm ht hw
      exact ⟨_, frameEvent_answered ha rfl rfl (by simp) ((takeTrip_configure hn).trans (configureEffect_some hconfig)),
        rfl, hf, hg, rfl, rfl, rfl, rfl⟩
    · refine frameEvent_answered ha rfl rfl (by simp) ?_
      exact (takeTrip_disarm hn).trans (congrArg (answer · .done) (State.tripReport_eq _))
    · refine frameEvent_answered ha rfl rfl (by simp) ?_
      exact (takeTrip_arm hn).trans (armEffect_standing (s := noted s h 21 6) hst)
    · have arms {u : State} (hu : (noted s h 21 6).armTrip n = u) : Gives (.tripArm h trip mode action terms window) s
          (answered (tripTold ((noted s h 21 6).recountOverflow u)) h 21 .done []) := by
        refine frameEvent_answered ha rfl rfl (by simp) ?_
        rw [← hu]
        exact (takeTrip_arm hn).trans (armEffect_evaluated (s := noted s h 21 6) hst)
      refine ⟨fun hm hc => arms ?_, fun hm hc => arms ?_, fun hm h1 => arms ?_, fun hm h1 h2 => arms ?_,
        fun hm h1 h2 => arms ?_⟩
      · exact (State.armTrip_combined (s := noted s h 21 6) hm).trans (if_pos ((Trip.combination_truths_iff hm).2 hc))
      · exact (State.armTrip_combined (s := noted s h 21 6) hm).trans
          (if_neg fun hc' => hc ((Trip.combination_truths_iff hm).1 hc'))
      · exact (State.armTrip_sequence (s := noted s h 21 6) hm).trans (if_neg h1)
      · exact (State.armTrip_sequence (s := noted s h 21 6) hm).trans ((if_pos h1).trans (if_neg h2))
      · exact (State.armTrip_sequence (s := noted s h 21 6) hm).trans ((if_pos h1).trans (if_pos h2))
  · exact congrArg Host.Outcome.next (if_pos hp)
  · exact congrArg Host.Outcome.next (if_neg hp)

/-- Settles O47: a cause at a node, ATTENTION, and VECTOR. -/
theorem attentionSetsAndVectorReads : Obligations.AttentionSetsAndVectorReads := by
  unfold Obligations.AttentionSetsAndVectorReads
  refine ⟨fun s n d => ?_, fun h s node priority flags ha => ⟨fun hbad => ?_, fun n p hn hp => ?_⟩,
    fun h c s ha hc => ⟨fun hnone => ?_, fun n hn hmost => ?_⟩⟩
  · exact congrArg (s.setNode n) (Node.pend_eq _ d)
  · refine frameEvent_answered ha rfl rfl (by simp) ?_
    exact takeAttention_of_bad hbad
  · have gives {w : Node} (hw : (noted s h 24 3).attend n p (flags.getLsbD 0) (flags.getLsbD 1) (flags.getLsbD 2)
        = (noted s h 24 3).setNode n w) : Gives (.attention h node priority flags) s
          (answered ((noted s h 24 3).setNode n w) h 24 .done (attentionWords n w)) := by
      refine frameEvent_answered ha rfl rfl (by simp) ?_
      exact takeAttention_attend hn hp hw
    refine ⟨fun ⟨h1, h2⟩ => gives ?_, fun ⟨h1, h2⟩ => gives ?_, fun h1 h2 => gives ?_⟩
    · rw [State.attend, h1, h2]
      exact congrArg ((noted s h 24 3).setNode n) (Node.pend_eq _ .client)
    · rw [State.attend, h1, h2]
      exact State.clearNode_eq _ n _
    · have same : flags.getLsbD 1 = flags.getLsbD 2 := by
        cases e1 : flags.getLsbD 1 <;> cases e2 : flags.getLsbD 2 <;> simp_all
      rw [State.attend, same]
      cases flags.getLsbD 2 <;> rfl
  · refine frameEvent_answered ha rfl rfl (by simp) ?_
    exact takeVector_none (notPerception_of_ne hc) (State.chosenNode_eq_none (s := noted s h 25 0) fun n =>
      Bool.eq_false_iff.2 fun hp => hnone n (Node.presentable_iff_ne.1 hp))
  · refine frameEvent_answered ha rfl rfl (by simp) ?_
    exact takeVector_some (s := noted s h 25 0) (notPerception_of_ne hc)
      (State.chosenNode_eq_some (s := noted s h 25 0) (Node.presentable_iff_ne.2 hn) fun m hm =>
        hmost m (Node.presentable_iff_ne.1 hm))

/-- Settles O49: SETPARAM and FRICTION. -/
theorem parametersAndFrictionAreSet : Obligations.ParametersAndFrictionAreSet := by
  unfold Obligations.ParametersAndFrictionAreSet
  intro h s u v w ha
  refine ⟨fun hu => ?_, fun n hn => ⟨fun hbad => ?_, fun hgood => ?_⟩, fun hbad => ?_, fun n hn hv hw => ?_⟩
  · refine frameEvent_answered ha rfl rfl (by simp) ?_
    rw [takeSetparam, permitted_of_eq_true rfl, indexOf_eq_none (bound := 18) hu]
    rfl
  · refine frameEvent_answered ha rfl rfl (by simp) ?_
    rw [takeSetparam, permitted_of_eq_true rfl, indexOf_eq_some n hn]
    exact if_pos (State.paramBad_iff (s := noted s h 32 2).2 hbad)
  · refine frameEvent_answered ha rfl rfl (by simp) ?_
    rw [takeSetparam, permitted_of_eq_true rfl, indexOf_eq_some n hn]
    refine (if_neg fun hb => hgood (State.paramBad_iff.1 hb)).trans ?_
    rw [State.writeParam, State.recountIf_beq, State.evaluateIfWalking_eq]
    rfl
  · refine frameEvent_answered ha rfl rfl (by simp) ?_
    exact takeFriction_of_bad hbad
  · refine frameEvent_answered ha rfl rfl (by simp) ?_
    rw [takeFriction_of_good hn hv hw, State.writeFriction, State.evaluateIfWalking_eq]
    rfl

end Sys2Proof.Proofs
end

section
/-! SUPPORT. The take of a SEEKING leg by what it finds, and the reports of a queue's change (R48, R57, R105). -/

namespace Sys2Proof.Machine

open Claims

variable {s : State} {l : Leg} {q : Handle} {rest : List Handle} {r : FootRecord}

theorem State.seek_of_not (h : ¬((s.leg l).phase = .seeking ∧ s.seq.gait ≠ .off ∧ s.rebasing = false)) : s.seek l = s :=
  if_neg h

theorem State.seek_of_asks (h : (s.leg l).phase = .seeking ∧ s.seq.gait ≠ .off ∧ s.rebasing = false) :
    s.seek l = s.takeForSeeking l := if_pos h

theorem State.failFront_eq (hr : s.slot q.index = some r) :
    let shorter := (s.queue l).filter fun e => e.index ≠ q.index
    let failed := freedByCheck (s.setQueue l shorter) q.index
    s.failFront l q = if shorter = [] then failed else { failed with newFronts := s.newFronts.set l true } := by
  intro shorter failed
  have freed : s.failReserved l q.index = failed :=
    State.freeFailed_eq_freedByCheck (s := s.setQueue l shorter) hr
  have left : failed.queue l = shorter := PerLeg.get_set_self _ _ _
  rw [State.failFront, freed, left]
  rfl

theorem State.enterSwing_eq (hr : s.slot q.index = some r) (hst : r.state = .reserved l)
    (hv : checkCode (coveredWords r.content (s.gen q.index)) = r.content.check) :
    s.enterSwing l q = (((s.setQueue l ((s.queue l).filter fun e => e.index ≠ q.index)).setSlot q.index
      (some { r with state := .target l, tag := s.seq.stride })).setLeg l
        { s.leg l with phase := .swing, target := some q, bounce := 0, swingTimer := .running (s.paramNat 6) }).sendOrder l
      .place (heldDifference r.content.x s.bal.com.1) (heldDifference r.content.y s.bal.com.2) r.content.z := by
  rw [State.enterSwing, State.takeFront_of_reserved hr hst]
  refine State.composePlace_verified (r := { r with state := .target l, tag := s.seq.stride }) (h := q) ?_ ?_ rfl hv
  · rw [State.leg_setLeg_self]
  · exact State.slot_setSlot_self _ _ _

theorem hasNewFront_iff {before after : List Handle} :
    hasNewFront before after = true ↔ after ≠ [] ∧ after.head? ≠ before.head? := by
  cases after with
  | nil => simp [hasNewFront]
  | cons a rest =>
    rw [hasNewFront, bne_iff_ne]
    exact ⟨fun h => ⟨List.cons_ne_nil _ _, fun he => h he.symm⟩, fun h he => h.2 he.symm⟩

theorem State.reportToLeg_elsewhere {f a : Bool} (h : (s.leg l).phase ≠ .seeking) : s.reportToLeg l f a = s := if_neg h

theorem State.reportToLeg_off {f a : Bool} (h : (s.leg l).phase = .seeking) (ho : s.seq.gait = .off) :
    s.reportToLeg l f a = if f then s.sendOrder l .hold 0 0 0 else s := (if_pos h).trans (if_pos ho)

theorem State.reportToLeg_seeking {f a : Bool} (h : (s.leg l).phase = .seeking) (ho : s.seq.gait ≠ .off) :
    s.reportToLeg l f a = if f || a then s.seekAndReport l else s := (if_pos h).trans (if_neg ho)

theorem State.reportToSequencer_eq (s : State) (l : Leg) : s.reportToSequencer l =
    if (s.seq.gait = .walking ∨ s.seq.gait = .holding) ∧ s.seq.pointer = l then s.evaluate else s := by
  simp only [State.reportToSequencer, Bool.and_eq_true, beq_iff_eq, State.walkingSelected_iff]

/-- The lowest-numbered leg of which something holds is the first found. -/
theorem Leg.find?_all {p : Leg → Bool} (h : p l = true) (hlow : ∀ m : Leg, m.number < l.number → p m = false) :
    Leg.all.find? p = some l := by
  have order : Leg.all = [.lf, .rf, .lh, .rh] := rfl
  rw [order]
  cases l with
  | lf => simp [h]
  | rf => simp [h, hlow .lf (by decide)]
  | lh => simp [h, hlow .lf (by decide), hlow .rf (by decide)]
  | rh => simp [h, hlow .lf (by decide), hlow .rf (by decide), hlow .lh (by decide)]

theorem step_waiting (hp : s.pending = []) (hl : s.newFronts.get l = true)
    (hlow : ∀ m : Leg, m.number < l.number → s.newFronts.get m = false) : step s = .next ((begun s).hearNewFront l) := by
  simp only [step, hp, takeWaitingReport, Leg.find?_all hl hlow]
  rfl

theorem State.hearNewFront_empty (h : s.queue l = []) : s.hearNewFront l = s.setNewFront l false := if_pos h

theorem State.hearNewFront_front (h : s.queue l ≠ []) :
    s.hearNewFront l = (s.setNewFront l false).reportToLeg l true false := if_neg h

end Sys2Proof.Machine
end

section
namespace Sys2Proof.Proofs

open Machine Claims

theorem seekingLegTakesItsFront : SeekingLegTakesItsFront := by
  intro s l
  dsimp only
  refine ⟨State.seek_of_not, fun asks hq => ?_, fun asks q rest r hq hr hst => ⟨fun bad => ?_, fun good unsound => ?_,
    fun good sound => ?_⟩⟩
  · rw [State.seek_of_asks asks, State.takeForSeeking, State.frontTest_empty hq]
  · rw [State.seek_of_asks asks, State.takeForSeeking, State.frontTest_inadmissible hq hr hst bad]
  · rw [State.seek_of_asks asks, State.takeForSeeking, (State.frontTest_admissible hq hr hst good).1 unsound]
    exact State.failFront_eq hr
  · rw [State.seek_of_asks asks, State.takeForSeeking, (State.frontTest_admissible hq hr hst good).2 sound]
    exact State.enterSwing_eq hr hst sound

theorem queueChangesAreReported : QueueChangesAreReported := by
  intro s l
  dsimp only
  refine ⟨fun h => ?_, fun h => ?_, fun h => if_pos h, fun h => if_neg h, fun before amended => ?_⟩
  · rw [State.reportToSequencer_eq, if_pos h]
  · rw [State.reportToSequencer_eq, if_neg h]
  · refine ⟨State.reportToLeg_elsewhere, fun hk ho hf => ?_, fun hk ho hf => ?_, fun hk ho hf => ?_, fun hk ho hf ha => ?_⟩
    · rw [State.reportQueue, State.reportToLeg_off hk ho, if_pos (hasNewFront_iff.2 hf)]
    · rw [State.reportQueue, State.reportToLeg_off hk ho, if_neg fun h => hf (hasNewFront_iff.1 h)]
    · rw [State.reportQueue, State.reportToLeg_seeking hk ho, if_pos]
      rwa [Bool.or_eq_true, hasNewFront_iff]
    · rw [State.reportQueue, State.reportToLeg_seeking hk ho, if_neg]
      rw [ha, Bool.or_false, hasNewFront_iff]
      exact hf

theorem waitingReportsComeInTheirOwnEvent : WaitingReportsComeInTheirOwnEvent := by
  intro s l hp hl hlow
  dsimp only
  rw [step_waiting hp hl hlow]
  refine ⟨fun h => congrArg Host.Outcome.next ?_, fun hq hk ho => congrArg Host.Outcome.next ?_,
    fun hq hk ho => congrArg Host.Outcome.next ?_⟩
  · by_cases hq : s.queue l = []
    · exact State.hearNewFront_empty (s := begun s) hq
    · exact (State.hearNewFront_front (s := begun s) hq).trans (State.reportToLeg_elsewhere (h.resolve_left hq))
  · exact (State.hearNewFront_front (s := begun s) hq).trans (State.reportToLeg_off hk ho)
  · exact (State.hearNewFront_front (s := begun s) hq).trans (State.reportToLeg_seeking hk ho)

/-- Settles O59: the take of a SEEKING leg, the reports that ask for one, and the waiting report. -/
theorem seekingLegsTakeTheirFronts : Obligations.SeekingLegsTakeTheirFronts :=
  ⟨seekingLegTakesItsFront, queueChangesAreReported, waitingReportsComeInTheirOwnEvent⟩

end Sys2Proof.Proofs
end

section
/-! SUPPORT. The members of a support set and their verification, the current margin and its tip test (R137, R138, R142, R145),
and one evaluation of lift readiness after another (R120, R121). -/

namespace Sys2Proof.Machine

open Claims

variable {s t : State} {l k : Leg} {i : RecordIndex} {r : FootRecord} {skip : Option Leg} {acc : State × Bool}

/-! ### Members of the support set -/

theorem State.supportOf_eq_some : s.supportOf l = some (i, r) ↔
    ((s.leg l).phase = .stance ∨ (s.leg l).phase = .unloading)
    ∧ (∃ h, (s.leg l).stance = some h ∧ h.index = i) ∧ s.slot i = some r ∧ r.state = .loaded l false := by
  unfold State.supportOf
  by_cases hp : (s.leg l).phase = .stance ∨ (s.leg l).phase = .unloading
  · rw [if_pos hp]
    cases hs : (s.leg l).stance with
    | none => simp
    | some h =>
      cases hr : s.slot h.index with
      | none => aesop
      | some r' =>
        by_cases hl : r'.state = .loaded l false
        · aesop
        · aesop
  · rw [if_neg hp]
    exact ⟨fun h => (Option.some_ne_none _ h.symm).elim, fun h => absurd h.1 hp⟩

theorem verifyMember_of_sound (h : ¬MemberFails skip acc.1 l) : verifyMember skip acc l = acc := by
  unfold verifyMember
  by_cases hk : skip = some l
  · exact if_pos hk
  · rw [if_neg hk]
    cases hs : acc.1.supportOf l with
    | none => rfl
    | some ir =>
      obtain ⟨i, r⟩ := ir
      exact if_pos (verifies_iff.2 (not_not.1 fun hv => h ⟨hk, i, r, hs, hv⟩))

/-- A set whose members all verify is left as it is by its verification (R138). -/
theorem State.verifySupport_of_sound (h : ∀ l, ¬MemberFails skip s l) : s.verifySupport skip = (s, false) := by
  have step (l : Leg) : verifyMember skip (s, false) l = (s, false) := verifyMember_of_sound (h l)
  have order : Leg.all = [.lf, .rf, .lh, .rh] := rfl
  simp only [State.verifySupport, order, List.foldl, step]

/-! ### The current margin -/

theorem HaltCause.tip_applies_iff {g : Gait} : HaltCause.tip.applies g = true ↔ g ≠ .off ∧ g ≠ .halted := by
  cases g <;> decide

/-- Where the tip condition does not hold the test changes nothing (R145). -/
theorem State.testTip_of_not (h : ¬((s.seq.gait ≠ .off ∧ s.seq.gait ≠ .halted) ∧ Unbalanced s)) : s.testTip = s := by
  refine if_neg fun ht => h ?_
  rw [Bool.and_eq_true, HaltCause.tip_applies_iff, State.marginUnsafe_iff] at ht
  exact ht

theorem State.testTip_of_tips (h : (s.seq.gait ≠ .off ∧ s.seq.gait ≠ .halted) ∧ Unbalanced s) :
    s.testTip = (({ s with attn := { s.attn with tipHolds := true } } : State).pend nodeTip (.tip s.bal.current)).haltCause
      .tip := by
  refine if_pos ?_
  rw [Bool.and_eq_true, HaltCause.tip_applies_iff, State.marginUnsafe_iff]
  exact h

/-- The current margin of a set whose members all verify (R142). -/
theorem State.computeCurrent_of_sound (hb : s.rebasing = false) (h : ∀ l, ¬MemberFails none s l) :
    s.computeCurrent = s.recordCurrent.testTip.deliver false .currentMargin .lf (s.marginWithout none).value.toInt := by
  rw [State.computeCurrent, hb, State.verifySupport_of_sound h]
  rfl

/-- No pose, or fewer than three support points, makes no margin (R139). -/
theorem marginOf_degenerate {com : Option Point} {points : List Point} (h : com = none ∨ points.length < 3) :
    marginOf com points = .degenerate := by
  cases com with
  | none => rfl
  | some p =>
    have few : points.length < 3 := h.resolve_left (Option.some_ne_none p)
    simp [marginOf, few]

/-! ### Lift readiness -/

theorem State.frontTest_failed_front {h : Handle} (e : s.frontTest l = .failed h) : ∃ rest, s.queue l = h :: rest := by
  unfold State.frontTest at e
  split at e
  · cases e
  · rename_i front rest hq
    refine ⟨rest, ?_⟩
    repeat' split at e
    all_goals cases e
    exact hq

theorem State.liftUnsafe_eq : s.liftUnsafe = decide (s.bal.lift.value.toInt < s.param 0 ∨ s.bal.lift.cls = .degen) := by
  rw [Bool.eq_iff_iff, decide_eq_true_eq, State.liftUnsafe, Bool.or_eq_true, decide_eq_true_eq, beq_iff_eq]

theorem State.stepOneStops_iff : s.stepOneStops = true ↔
    (∃ m, (s.leg m).phase.inFlight = true) ∨ s.seq.liftPending ≠ none ∨ (s.leg s.seq.pointer).phase ≠ .stance := by
  simp only [State.stepOneStops, Bool.or_eq_true, State.anyInFlight_iff, Option.isSome_iff_ne_none, bne_iff_ne,
    or_assoc]

/-- An evaluation is made: walking is selected and REBASE is not in the set (R120). -/
def State.evaluates (s : State) : Prop := (s.seq.gait = .walking ∨ s.seq.gait = .holding) ∧ s.seq.reasons.rebase = false

theorem State.evaluateOnce_none (h : ¬s.evaluates) : s.evaluateOnce = s := by
  refine if_neg fun hw => h ?_
  simpa [State.evaluates, State.walkingSelected_iff] using hw

theorem State.evaluateOnce_stops (h : s.evaluates) (hs : s.stepOneStops = true) :
    s.evaluateOnce = (s.putThree false false false).settleGait := by
  refine (if_pos ?_).trans (if_pos hs)
  simpa [State.evaluates, State.walkingSelected_iff] using h

theorem State.evaluateOnce_goes (h : s.evaluates) (hs : s.stepOneStops = false) :
    s.evaluateOnce = s.evaluateFrom s.seq.pointer := by
  refine (if_pos ?_).trans (if_neg (by simp [hs]))
  simpa [State.evaluates, State.walkingSelected_iff] using h

theorem State.evaluationFailsFront_iff : s.evaluationFailsFront = true ↔
    s.evaluates ∧ s.stepOneStops = false ∧ (s.frontTest s.seq.pointer).isFailed = true := by
  simp [State.evaluationFailsFront, State.evaluates, State.walkingSelected_iff, and_assoc]

theorem FrontTest.isFailed_iff {f : FrontTest} : f.isFailed = true ↔ ∃ h, f = .failed h := by
  cases f <;> simp [FrontTest.isFailed]

theorem FrontTest.isUsable_iff {f : FrontTest} : f.isUsable = true ↔ ∃ h, f = .usable h := by
  cases f <;> simp [FrontTest.isUsable]

theorem State.evaluationFailsFront_of
    (h : ¬(s.evaluates ∧ s.stepOneStops = false ∧ (s.frontTest s.seq.pointer).isFailed = true)) :
    s.evaluationFailsFront = false := Bool.eq_false_iff.2 fun hf => h (State.evaluationFailsFront_iff.1 hf)

/-- A front that is usable or fails its check alone passes the other tests (R21). -/
theorem State.frontTest_passes {h : Handle} (e : s.frontTest l = .usable h ∨ s.frontTest l = .failed h) :
    ∃ rest r, s.queue l = h :: rest ∧ s.slot h.index = some r ∧ r.state = .reserved l
      ∧ slopePasses r.content = true ∧ s.param 13 ≤ (r.content.confidence.toNat : Int) := by
  unfold State.frontTest at e
  cases hq : s.queue l with
  | nil => simp [hq] at e
  | cons front rest =>
    cases hr : s.slot front.index with
    | none => simp [hq, hr] at e
    | some r =>
      simp only [hq, hr] at e
      by_cases hst : r.state = .reserved l
      · cases hsl : slopePasses r.content with
        | false => simp [hst, hsl] at e
        | true =>
          cases hc : s.confidencePasses r.content with
          | false => simp [hst, hsl, hc] at e
          | true =>
            cases hv : verifies r.content (s.gen front.index) with
            | false =>
              obtain rfl : front = h := by simpa [hst, hsl, hc, hv] using e
              exact ⟨rest, r, rfl, hr, hst, hsl, State.confidencePasses_iff.1 hc⟩
            | true =>
              obtain rfl : front = h := by simpa [hst, hsl, hc, hv] using e
              exact ⟨rest, r, rfl, hr, hst, hsl, State.confidencePasses_iff.1 hc⟩
      · simp [hst] at e

theorem State.afterFront_of_not_failed (h : ∀ q, s.frontTest l ≠ .failed q) : s.afterFront l = s := by
  unfold State.afterFront
  cases hf : s.frontTest l with
  | failed q => exact absurd hf (h q)
  | empty | inadmissible | usable q => rfl

theorem State.afterFront_of_failed {q : Handle} (h : s.frontTest l = .failed q) (hr : s.slot q.index = some r) :
    s.afterFront l = freedByCheck (s.setQueue l ((s.queue l).filter fun e => e.index ≠ q.index)) q.index := by
  rw [State.afterFront, h]
  exact State.freeFailed_eq_freedByCheck (s := s.dropFromQueue l q.index) hr

theorem State.settleGait_reasons (s : State) : s.settleGait.seq.reasons = s.seq.reasons := by
  unfold State.settleGait
  cases s.seq.gait with
  | walking | holding => dsimp only; split <;> rfl
  | off | standing | stopping | halted => rfl

/-- An evaluation that finds no failure on the front is the last one. -/
theorem State.evaluate_last (h : s.evaluationFailsFront = false) : s.evaluate = s.evaluateOnce := by
  rw [State.evaluate, evaluations, h]
  rfl

theorem State.failReserved_queue (s : State) (l : Leg) (i : RecordIndex) :
    (s.failReserved l i).queue l = (s.queue l).filter fun e => e.index ≠ i := by
  have freed : ((s.dropFromQueue l i).freeFailed i).queues = (s.dropFromQueue l i).queues :=
    State.freeRecord_queues (s := (s.dropFromQueue l i).setCheckFlag) .check
  exact (congrArg (fun q : PerLeg (List Handle) => q.get l) freed).trans (PerLeg.get_set_self _ _ _)

theorem State.failReserved_leg (s : State) (l : Leg) (i : RecordIndex) (m : Leg) :
    (s.failReserved l i).leg m = s.leg m := State.freeFailed_leg (s := s.dropFromQueue l i) m

theorem State.evaluateOnce_pointer (s : State) : s.evaluateOnce.seq.pointer = s.seq.pointer :=
  (State.evaluateOnce_calm (k := .plain)).seq.pointer rfl

/-- An evaluation that fails the front leaves the pointer and a shorter queue (R121). -/
theorem State.evaluateOnce_shortens (h : s.evaluationFailsFront = true) :
    (s.evaluateOnce.queue s.evaluateOnce.seq.pointer).length < (s.queue s.seq.pointer).length := by
  obtain ⟨he, hs, hf⟩ := State.evaluationFailsFront_iff.1 h
  obtain ⟨front, hfront⟩ := FrontTest.isFailed_iff.1 hf
  obtain ⟨rest, hq⟩ := State.frontTest_failed_front hfront
  have stands : (s.leg s.seq.pointer).phase = .stance :=
    not_not.1 fun hp => Bool.false_ne_true (hs.symm.trans (State.stepOneStops_iff.2 (.inr (.inr hp))))
  have failed : s.afterFront s.seq.pointer = s.failReserved s.seq.pointer front.index := by
    rw [State.afterFront, hfront]
  have standing : ((s.failReserved s.seq.pointer front.index).leg s.seq.pointer).phase = .stance := by
    rw [State.failReserved_leg, stands]
  have after : Tame (s.failReserved s.seq.pointer front.index) (s.evaluateFrom s.seq.pointer) := by
    have computed := State.computeLift_tame (s := s.failReserved s.seq.pointer front.index) s.seq.pointer
    rw [State.evaluateFrom, failed]
    exact .ite (fun _ => computed.trans (State.closeEvaluation_tame ..)) fun _ => computed
  have kept := (after.legs s.seq.pointer (by simp [standing]) (by simp [standing])).2
  rw [State.evaluateOnce_pointer, State.evaluateOnce_goes he hs]
  refine lt_of_le_of_lt kept.length_le ?_
  rw [State.failReserved_queue, hq, List.filter_cons_of_neg (by simp)]
  exact Nat.lt_succ_of_le (List.length_filter_le _ _)

/-- Beyond the length of the next leg's queue the fuel makes no difference. -/
theorem evaluations_enough (n : Nat) : ∀ (m : Nat) (s : State), (s.queue s.seq.pointer).length < n →
    (s.queue s.seq.pointer).length < m → evaluations n s = evaluations m s := by
  induction n with
  | zero => exact fun _ s h => absurd h (Nat.not_lt_zero _)
  | succ n ih =>
    intro m s hn hm
    obtain ⟨m, rfl⟩ : ∃ k, m = k + 1 := ⟨m - 1, by omega⟩
    cases hf : s.evaluationFailsFront with
    | false => simp only [evaluations, hf, Bool.false_eq_true, if_false]
    | true =>
      have shorter := State.evaluateOnce_shortens hf
      simp only [evaluations, hf, if_true]
      exact ih m _ (by omega) (by omega)

/-- An evaluation that fails the front is followed by a further one (R121). -/
theorem State.evaluate_again (h : s.evaluationFailsFront = true) : s.evaluate = s.evaluateOnce.evaluate := by
  have shorter := State.evaluateOnce_shortens h
  have first : s.evaluate = evaluations (s.queue s.seq.pointer).length s.evaluateOnce := by
    rw [State.evaluate, evaluations, h]
    rfl
  rw [first]
  exact evaluations_enough _ _ _ shorter (Nat.lt_succ_self _)

end Sys2Proof.Machine
end

section
namespace Sys2Proof.Proofs

open Machine Claims

/-- Settles O43: the current margin, recorded over a sound set and tested for the tip condition. -/
theorem currentMarginTestsForTip : Obligations.CurrentMarginTestsForTip := by
  unfold Obligations.CurrentMarginTestsForTip
  intro s
  refine ⟨fun hb => if_pos hb, fun h => marginOf_degenerate ?_, fun hb hsound => ?_⟩
  · exact h.imp_left fun hn => if_pos hn
  · have sound (l : Leg) : ¬MemberFails none s l := fun ⟨_, i, r, hs, hv⟩ => hv (hsound l i r hs)
    refine ⟨fun hn => ?_, fun ht => ?_⟩
    · rw [State.computeCurrent_of_sound hb sound, State.testTip_of_not (s := s.recordCurrent) hn]
      rfl
    · rw [State.computeCurrent_of_sound hb sound, State.testTip_of_tips (s := s.recordCurrent) ht]
      rfl

/-- Settles O38: lift readiness by what stops it and by what the front, the pose and the margin say. -/
theorem readinessAsksTheNextLeg : Obligations.ReadinessAsksTheNextLeg := by
  unfold Obligations.ReadinessAsksTheNextLeg
  intro s
  dsimp only
  refine ⟨fun h => ?_, fun hw hr hs => ?_, fun hw hr hs usable hu hsound => ?_,
    fun hw hr hs q rest r hq hr' hst hsl hc hv => ?_⟩
  · have none : ¬s.evaluates := fun he => h.elim (· he.1) fun hr => Bool.false_ne_true (he.2.symm.trans hr)
    rw [State.evaluate_last (State.evaluationFailsFront_of fun hf => none hf.1), State.evaluateOnce_none none]
  · have stops := State.stepOneStops_iff.2 hs
    rw [State.evaluate_last (State.evaluationFailsFront_of fun hf => Bool.false_ne_true (hf.2.1.symm.trans stops)),
      State.evaluateOnce_stops ⟨hw, hr⟩ stops]
    rfl
  · have goes : s.stepOneStops = false := Bool.eq_false_iff.2 fun h => hs (State.stepOneStops_iff.1 h)
    have notFailed (h : Handle) : s.frontTest s.seq.pointer ≠ .failed h := fun hf => by
      obtain ⟨rest, r, hq, hr, hst, hsl, hc⟩ := State.frontTest_passes (.inr hf)
      have unsound := (State.frontTest_admissible hq hr hst (not_or.2 ⟨by simp [hsl], Int.not_lt.2 hc⟩)).2
        (hsound h rest r hq hr hst hsl hc)
      exact FrontTest.noConfusion (unsound.symm.trans hf)
    have sameUsable : (s.frontTest s.seq.pointer).isUsable = usable := by
      rw [Bool.eq_iff_iff, hu]
      constructor
      · intro h
        obtain ⟨q, hq⟩ := FrontTest.isUsable_iff.1 h
        exact ⟨q, State.frontTest_passes (.inl hq)⟩
      · rintro ⟨q, rest, r, hq, hr, hst, hsl, hc⟩
        rw [(State.frontTest_admissible hq hr hst (not_or.2 ⟨by simp [hsl], Int.not_lt.2 hc⟩)).2
          (hsound q rest r hq hr hst hsl hc)]
        rfl
    rw [State.evaluate_last (State.evaluationFailsFront_of fun hf => (FrontTest.isFailed_iff.1 hf.2.2).elim notFailed),
      State.evaluateOnce_goes ⟨hw, hr⟩ goes, State.evaluateFrom, State.afterFront_of_not_failed notFailed, sameUsable]
    simp only [← State.liftUnsafe_eq]
    refine ⟨fun hm => ?_, fun hm hn => ?_, fun hm hn => ?_⟩
    · exact if_neg fun h => hm (State.walkingSelected_iff.1 h)
    · exact (if_pos (State.walkingSelected_iff.2 hm)).trans (if_neg hn)
    · exact (if_pos (State.walkingSelected_iff.2 hm)).trans (if_pos hn)
  · have goes : s.stepOneStops = false := Bool.eq_false_iff.2 fun h => hs (State.stepOneStops_iff.1 h)
    have failed : s.frontTest s.seq.pointer = .failed q :=
      (State.frontTest_admissible hq hr' hst (not_or.2 ⟨by simp [hsl], Int.not_lt.2 hc⟩)).1 hv
    have fails : s.evaluationFailsFront = true :=
      State.evaluationFailsFront_iff.2 ⟨⟨hw, hr⟩, goes, FrontTest.isFailed_iff.2 ⟨q, failed⟩⟩
    rw [State.evaluate_again fails, State.evaluateOnce_goes ⟨hw, hr⟩ goes, State.evaluateFrom,
      State.afterFront_of_failed failed hr', failed]
    simp only [← State.liftUnsafe_eq, State.walkingSelected_iff]
    refine congrArg State.evaluate (if_congr Iff.rfl (if_neg fun he => ?_) rfl)
    rw [State.settleGait_reasons] at he
    exact Bool.noConfusion (congrArg HoldReasons.noFoothold he)

end Sys2Proof.Proofs
end

section
/-! SUPPORT. The margin's hull: the test of a point against a triangle as a weighted mean of its vertices, the order of four
points in convex position, and the least edge distance against the exact one (R139 to R141). -/

namespace Sys2Proof.Machine

open Claims

variable {p q a b c d m n : Point}

/-! ### Weighted means -/

theorem within_of_int {i j k : Int} (hi : 0 ≤ i) (hj : 0 ≤ j) (hk : 0 ≤ k) (pos : 0 < i + j + k)
    (hx : (i + j + k) * q.x = i * a.x + j * b.x + k * c.x) (hy : (i + j + k) * q.y = i * a.y + j * b.y + k * c.y) :
    Within q a b c := by
  refine ⟨i.toNat, j.toNat, k.toNat, by omega, ?_, ?_⟩
  all_goals
    simp only [Int.toNat_of_nonneg hi, Int.toNat_of_nonneg hj, Int.toNat_of_nonneg hk]
    assumption

theorem within_to_int (h : Within q a b c) : ∃ i j k : Int, 0 ≤ i ∧ 0 ≤ j ∧ 0 ≤ k ∧ 0 < i + j + k
    ∧ (i + j + k) * q.x = i * a.x + j * b.x + k * c.x ∧ (i + j + k) * q.y = i * a.y + j * b.y + k * c.y := by
  obtain ⟨i, j, k, pos, hx, hy⟩ := h
  exact ⟨i, j, k, by omega, by omega, by omega, by omega, hx, hy⟩

/-- The cross products of a weighted mean are the opposite weights times the triangle's. -/
theorem cross_of_mean {i j k : Int} (hx : (i + j + k) * q.x = i * a.x + j * b.x + k * c.x)
    (hy : (i + j + k) * q.y = i * a.y + j * b.y + k * c.y) :
    (i + j + k) * cross a b q = k * cross a b c ∧ (i + j + k) * cross b c q = i * cross a b c
      ∧ (i + j + k) * cross c a q = j * cross a b c := by
  unfold cross
  refine ⟨?_, ?_, ?_⟩
  · linear_combination (b.x - a.x) * hy - (b.y - a.y) * hx
  · linear_combination (c.x - b.x) * hy - (c.y - b.y) * hx
  · linear_combination (a.x - c.x) * hy - (a.y - c.y) * hx

/-- A mean of three collinear points is collinear with every two of them. -/
theorem within_cross_eq_zero (h : Within q a b c) (h0 : cross a b c = 0) :
    cross a b q = 0 ∧ cross b c q = 0 ∧ cross c a q = 0 := by
  obtain ⟨i, j, k, -, -, -, pos, hx, hy⟩ := within_to_int h
  obtain ⟨hu, hv, hw⟩ := cross_of_mean hx hy
  rw [h0, mul_zero] at hu hv hw
  exact ⟨(mul_eq_zero.1 hu).resolve_left pos.ne', (mul_eq_zero.1 hv).resolve_left pos.ne',
    (mul_eq_zero.1 hw).resolve_left pos.ne'⟩

/-- Against a triangle with an area the test is the three signs (R139). -/
theorem within_iff_of_area (h : cross a b c ≠ 0) : Within q a b c ↔
    (0 ≤ cross a b q ∧ 0 ≤ cross b c q ∧ 0 ≤ cross c a q) ∨ (cross a b q ≤ 0 ∧ cross b c q ≤ 0 ∧ cross c a q ≤ 0) := by
  have total : cross b c q + cross c a q + cross a b q = cross a b c := by unfold cross; ring
  constructor
  · intro hw
    obtain ⟨i, j, k, hi, hj, hk, pos, hx, hy⟩ := within_to_int hw
    obtain ⟨hu, hv, hw⟩ := cross_of_mean hx hy
    rcases lt_or_gt_of_ne h with hD | hD
    · exact .inr ⟨nonpos_of_mul_nonpos_right (hu.trans_le (mul_nonpos_of_nonneg_of_nonpos hk hD.le)) pos,
        nonpos_of_mul_nonpos_right (hv.trans_le (mul_nonpos_of_nonneg_of_nonpos hi hD.le)) pos,
        nonpos_of_mul_nonpos_right (hw.trans_le (mul_nonpos_of_nonneg_of_nonpos hj hD.le)) pos⟩
    · exact .inl ⟨nonneg_of_mul_nonneg_right (hu.symm ▸ mul_nonneg hk hD.le) pos,
        nonneg_of_mul_nonneg_right (hv.symm ▸ mul_nonneg hi hD.le) pos,
        nonneg_of_mul_nonneg_right (hw.symm ▸ mul_nonneg hj hD.le) pos⟩
  · rintro (⟨hu, hv, hw⟩ | ⟨hu, hv, hw⟩)
    · refine within_of_int hv hw hu (by omega) ?_ ?_
      all_goals unfold cross; ring
    · refine within_of_int (neg_nonneg.2 hv) (neg_nonneg.2 hw) (neg_nonneg.2 hu) (by omega) ?_ ?_
      all_goals unfold cross; ring

/-! ### A triangle without area -/

theorem vertex_weights (h : m ∈ [a, b, c]) : ∃ i j k : Int, 0 ≤ i ∧ 0 ≤ j ∧ 0 ≤ k ∧ i + j + k = 1
    ∧ m.x = i * a.x + j * b.x + k * c.x ∧ m.y = i * a.y + j * b.y + k * c.y := by
  simp only [List.mem_cons, List.not_mem_nil, or_false] at h
  rcases h with rfl | rfl | rfl
  · exact ⟨1, 0, 0, by simp⟩
  · exact ⟨0, 1, 0, by simp⟩
  · exact ⟨0, 0, 1, by simp⟩

/-- A mean of two vertices is a mean of the three. -/
theorem within_of_pair {i j : Int} (hm : m ∈ [a, b, c]) (hn : n ∈ [a, b, c]) (hi : 0 ≤ i) (hj : 0 ≤ j) (pos : 0 < i + j)
    (hx : (i + j) * q.x = i * m.x + j * n.x) (hy : (i + j) * q.y = i * m.y + j * n.y) : Within q a b c := by
  obtain ⟨i₁, j₁, k₁, hi₁, hj₁, hk₁, h₁, hx₁, hy₁⟩ := vertex_weights hm
  obtain ⟨i₂, j₂, k₂, hi₂, hj₂, hk₂, h₂, hx₂, hy₂⟩ := vertex_weights hn
  have total : (i * i₁ + j * i₂) + (i * j₁ + j * j₂) + (i * k₁ + j * k₂) = i + j := by
    linear_combination i * h₁ + j * h₂
  refine within_of_int (i := i * i₁ + j * i₂) (j := i * j₁ + j * j₂) (k := i * k₁ + j * k₂) (by positivity) (by positivity)
    (by positivity) (total ▸ pos) ?_ ?_
  · rw [total, hx, hx₁, hx₂]
    ring
  · rw [total, hy, hy₁, hy₂]
    ring

theorem exists_vertex_min (f : Point → Int) (a b c : Point) : ∃ m ∈ [a, b, c], f m = min (f a) (min (f b) (f c)) := by
  rcases min_choice (f a) (min (f b) (f c)) with h | h
  · exact ⟨a, by simp, h.symm⟩
  · rcases min_choice (f b) (f c) with h' | h'
    · exact ⟨b, by simp, (h.trans h').symm⟩
    · exact ⟨c, by simp, (h.trans h').symm⟩

theorem exists_vertex_max (f : Point → Int) (a b c : Point) : ∃ m ∈ [a, b, c], f m = max (f a) (max (f b) (f c)) := by
  rcases max_choice (f a) (max (f b) (f c)) with h | h
  · exact ⟨a, by simp, h.symm⟩
  · rcases max_choice (f b) (f c) with h' | h'
    · exact ⟨b, by simp, (h.trans h').symm⟩
    · exact ⟨c, by simp, (h.trans h').symm⟩

/-- A point in line with every two vertices is in line with any pair of them. -/
theorem cross_vertices_eq_zero (hu : cross a b q = 0) (hv : cross b c q = 0) (hw : cross c a q = 0) (hm : m ∈ [a, b, c])
    (hn : n ∈ [a, b, c]) : cross m n q = 0 := by
  have swap (x y : Point) : cross x y q = -cross y x q := by unfold cross; ring
  have self (x : Point) : cross x x q = 0 := by unfold cross; ring
  simp only [List.mem_cons, List.not_mem_nil, or_false] at hm hn
  rcases hm with rfl | rfl | rfl
  · rcases hn with rfl | rfl | rfl
    · exact self _
    · exact hu
    · rw [swap, hw, neg_zero]
  · rcases hn with rfl | rfl | rfl
    · rw [swap, hu, neg_zero]
    · exact self _
    · exact hv
  · rcases hn with rfl | rfl | rfl
    · exact hw
    · rw [swap, hv, neg_zero]
    · exact self _

/-- A mean lies in the box of its vertices. -/
theorem mean_bounds {i j k x x₁ x₂ x₃ : Int} (hi : 0 ≤ i) (hj : 0 ≤ j) (hk : 0 ≤ k) (pos : 0 < i + j + k)
    (h : (i + j + k) * x = i * x₁ + j * x₂ + k * x₃) :
    min x₁ (min x₂ x₃) ≤ x ∧ x ≤ max x₁ (max x₂ x₃) := by
  constructor
  · refine le_of_mul_le_mul_left ?_ pos
    have h₁ : i * min x₁ (min x₂ x₃) ≤ i * x₁ := mul_le_mul_of_nonneg_left (by omega) hi
    have h₂ : j * min x₁ (min x₂ x₃) ≤ j * x₂ := mul_le_mul_of_nonneg_left (by omega) hj
    have h₃ : k * min x₁ (min x₂ x₃) ≤ k * x₃ := mul_le_mul_of_nonneg_left (by omega) hk
    linarith
  · refine le_of_mul_le_mul_left ?_ pos
    have h₁ : i * x₁ ≤ i * max x₁ (max x₂ x₃) := mul_le_mul_of_nonneg_left (by omega) hi
    have h₂ : j * x₂ ≤ j * max x₁ (max x₂ x₃) := mul_le_mul_of_nonneg_left (by omega) hj
    have h₃ : k * x₃ ≤ k * max x₁ (max x₂ x₃) := mul_le_mul_of_nonneg_left (by omega) hk
    linarith

/-- Against a triangle without area the test is that of the segment its points span (R139). -/
theorem within_iff_of_flat (h : cross a b c = 0) : Within q a b c ↔
    (cross a b q = 0 ∧ cross b c q = 0 ∧ cross c a q = 0)
      ∧ (min a.x (min b.x c.x) ≤ q.x ∧ q.x ≤ max a.x (max b.x c.x))
      ∧ (min a.y (min b.y c.y) ≤ q.y ∧ q.y ≤ max a.y (max b.y c.y)) := by
  constructor
  · intro hw
    obtain ⟨i, j, k, hi, hj, hk, pos, hx, hy⟩ := within_to_int hw
    exact ⟨within_cross_eq_zero hw h, mean_bounds hi hj hk pos hx, mean_bounds hi hj hk pos hy⟩
  · rintro ⟨⟨hu, hv, hw⟩, ⟨hxlo, hxhi⟩, hylo, hyhi⟩
    by_cases wide : min a.x (min b.x c.x) < max a.x (max b.x c.x)
    · obtain ⟨m, hm, hmx⟩ := exists_vertex_min Point.x a b c
      obtain ⟨n, hn, hnx⟩ := exists_vertex_max Point.x a b c
      have line := cross_vertices_eq_zero hu hv hw hm hn
      unfold cross at line
      refine within_of_pair (i := n.x - q.x) (j := q.x - m.x) hm hn (by omega) (by omega) (by omega) (by ring) ?_
      linear_combination line
    · by_cases high : min a.y (min b.y c.y) < max a.y (max b.y c.y)
      · obtain ⟨m, hm, hmy⟩ := exists_vertex_min Point.y a b c
        obtain ⟨n, hn, hny⟩ := exists_vertex_max Point.y a b c
        have line := cross_vertices_eq_zero hu hv hw hm hn
        unfold cross at line
        refine within_of_pair (i := n.y - q.y) (j := q.y - m.y) hm hn (by omega) (by omega) (by omega) ?_ (by ring)
        linear_combination -line
      · refine within_of_int (i := 1) (j := 0) (k := 0) (by decide) (by decide) (by decide) (by decide) ?_ ?_
        · omega
        · omega

/-- The model's test of a point against a triangle (R139 step 5). -/
theorem inTriangle_iff : inTriangle q a b c = true ↔ Within q a b c := by
  unfold inTriangle
  by_cases h : cross a b c = 0
  · rw [within_iff_of_flat h]
    simp [h, and_assoc]
  · rw [within_iff_of_area h]
    simp [h, and_assoc]

/-! ### Four points -/

theorem noArea_four_iff : noArea [a, b, c, d] = true ↔
    cross a b c = 0 ∧ cross a b d = 0 ∧ cross a c d = 0 ∧ cross b c d = 0 := by
  simp [noArea, collinear, and_assoc]

/-- Four points one of which is a mean of three in line are all in line. -/
theorem area_of_within (hq : Within q a b c)
    (h : ¬(cross a b q = 0 ∧ cross b c q = 0 ∧ cross c a q = 0 ∧ cross a b c = 0)) : cross a b c ≠ 0 := by
  intro h0
  obtain ⟨hu, hv, hw⟩ := within_cross_eq_zero hq h0
  exact h ⟨hu, hv, hw, h0⟩

/-- The turns with signs x, y, z of a point about a triangle of sign T put it outside, where the triangle has an area. -/
def outsideSigns (T x y z : SignType) : Bool :=
  T == 0 || !((decide (0 ≤ x) && decide (0 ≤ y) && decide (0 ≤ z)) || (decide (x ≤ 0) && decide (y ≤ 0) && decide (z ≤ 0)))

/-- Turns with these signs cannot have A + C = B + D, all zero apart. -/
def unequalSigns (A B C D : SignType) : Bool :=
  (decide (0 ≤ A) && decide (0 ≤ C) && decide (B ≤ 0) && decide (D ≤ 0))
    || (decide (A ≤ 0) && decide (C ≤ 0) && decide (0 ≤ B) && decide (0 ≤ D))

/-- The signs of the turns of four points in convex position, one pattern for each order of the four. -/
def convexSigns : List (SignType × SignType × SignType × SignType) :=
  [(1, 1, 1, 1), (-1, -1, 1, 1), (-1, 1, 1, -1), (1, 1, -1, -1), (1, -1, -1, 1), (-1, -1, -1, -1)]

/-- The signs of the turns of the four triangles, named by the point each leaves out, when none of the points lies in the
triangle of the others and A + C = B + D (R139 step 5). -/
theorem mem_convexSigns : ∀ A B C D : SignType, unequalSigns A B C D = false →
    (outsideSigns A D B (-C) && outsideSigns B (-D) A C && outsideSigns C D (-A) B && outsideSigns D C A (-B)) = true →
    (A, B, C, D) ∈ convexSigns := by
  decide +kernel

theorem outsideSigns_sign {T x y z : Int} (h : T ≠ 0 → ¬((0 ≤ x ∧ 0 ≤ y ∧ 0 ≤ z) ∨ (x ≤ 0 ∧ y ≤ 0 ∧ z ≤ 0))) :
    outsideSigns (SignType.sign T) (SignType.sign x) (SignType.sign y) (SignType.sign z) = true := by
  by_cases hT : T = 0
  · simp [outsideSigns, hT]
  · have out := h hT
    simp only [outsideSigns, sign_nonneg_iff, sign_nonpos_iff, Bool.or_eq_true, Bool.not_eq_true', Bool.or_eq_false_iff,
      Bool.and_eq_false_iff, decide_eq_false_iff_not]
    right
    omega

theorem convex_signs {A B C D : Int} (sum : A + C = B + D) (area : ¬(D = 0 ∧ C = 0 ∧ B = 0 ∧ A = 0))
    (ha : A ≠ 0 → ¬((0 ≤ D ∧ 0 ≤ B ∧ 0 ≤ -C) ∨ (D ≤ 0 ∧ B ≤ 0 ∧ -C ≤ 0)))
    (hb : B ≠ 0 → ¬((0 ≤ -D ∧ 0 ≤ A ∧ 0 ≤ C) ∨ (-D ≤ 0 ∧ A ≤ 0 ∧ C ≤ 0)))
    (hc : C ≠ 0 → ¬((0 ≤ D ∧ 0 ≤ -A ∧ 0 ≤ B) ∨ (D ≤ 0 ∧ -A ≤ 0 ∧ B ≤ 0)))
    (hd : D ≠ 0 → ¬((0 ≤ C ∧ 0 ≤ A ∧ 0 ≤ -B) ∨ (C ≤ 0 ∧ A ≤ 0 ∧ -B ≤ 0))) :
    (0 < A ∧ 0 < B ∧ 0 < C ∧ 0 < D) ∨ (A < 0 ∧ B < 0 ∧ 0 < C ∧ 0 < D) ∨ (A < 0 ∧ 0 < B ∧ 0 < C ∧ D < 0)
      ∨ (0 < A ∧ 0 < B ∧ C < 0 ∧ D < 0) ∨ (0 < A ∧ B < 0 ∧ C < 0 ∧ 0 < D) ∨ (A < 0 ∧ B < 0 ∧ C < 0 ∧ D < 0) := by
  have equal : unequalSigns (SignType.sign A) (SignType.sign B) (SignType.sign C) (SignType.sign D) = false := by
    simp only [unequalSigns, sign_nonneg_iff, sign_nonpos_iff, Bool.or_eq_false_iff, Bool.and_eq_false_iff,
      decide_eq_false_iff_not]
    omega
  have pattern := mem_convexSigns _ _ _ _ equal
  simp only [← Left.sign_neg] at pattern
  simp only [outsideSigns_sign ha, outsideSigns_sign hb, outsideSigns_sign hc, outsideSigns_sign hd, Bool.and_self,
    forall_const, convexSigns, sign_eq_one_iff, sign_eq_neg_one_iff, List.mem_cons, List.not_mem_nil, or_false,
    Prod.mk.injEq] at pattern
  exact pattern

theorem allLeft_iff : allLeft a b c d = true ↔
    0 < cross a b c ∧ 0 < cross b c d ∧ 0 < cross c d a ∧ 0 < cross d a b := by
  simp [allLeft, and_assoc]

theorem cross_rotate (a b c : Point) : cross b c a = cross a b c := by unfold cross; ring

theorem cross_flip (a b c : Point) : cross b a c = -cross a b c := by unfold cross; ring

theorem cross_swap_last (a b c : Point) : cross a c b = -cross a b c := by unfold cross; ring

theorem cross_reverse (a b c : Point) : cross c b a = -cross a b c := by unfold cross; ring

/-- Each order of four points from the first, its turns by the triangles in leg order. -/
theorem allLeft_orders (a b c d : Point) :
    (allLeft a b c d = true ↔ 0 < cross b c d ∧ 0 < cross a c d ∧ 0 < cross a b d ∧ 0 < cross a b c)
    ∧ (allLeft a b d c = true ↔ cross b c d < 0 ∧ cross a c d < 0 ∧ 0 < cross a b d ∧ 0 < cross a b c)
    ∧ (allLeft a c b d = true ↔ cross b c d < 0 ∧ 0 < cross a c d ∧ 0 < cross a b d ∧ cross a b c < 0)
    ∧ (allLeft a c d b = true ↔ 0 < cross b c d ∧ 0 < cross a c d ∧ cross a b d < 0 ∧ cross a b c < 0)
    ∧ (allLeft a d b c = true ↔ 0 < cross b c d ∧ cross a c d < 0 ∧ cross a b d < 0 ∧ 0 < cross a b c)
    ∧ (allLeft a d c b = true ↔ cross b c d < 0 ∧ cross a c d < 0 ∧ cross a b d < 0 ∧ cross a b c < 0) := by
  have turns (w x y z : Point) : allLeft w x y z = true ↔
      0 < cross w x y ∧ 0 < cross x y z ∧ 0 < cross w y z ∧ 0 < cross w x z := by
    rw [allLeft_iff, cross_rotate w y z, ← cross_rotate z w x]
  simp only [turns, cross_swap_last a b c, cross_swap_last a b d, cross_swap_last a c d, cross_swap_last b c d,
    cross_flip b c d, cross_rotate b c d, ← cross_rotate d b c, cross_reverse b c d, Left.neg_pos_iff]
  omega

/-- Four points none of which lies in the triangle of the others, in the order that the model gives them: every turn is to the
left (R139 step 5). -/
theorem quadrilateral_allLeft (area : ¬(cross a b c = 0 ∧ cross a b d = 0 ∧ cross a c d = 0 ∧ cross b c d = 0))
    (ha : ¬Within a b c d) (hb : ¬Within b a c d) (hc : ¬Within c a b d) (hd : ¬Within d a b c) :
    ∃ w x y z, quadrilateral a b c d = [w, x, y, z] ∧ [w, x, y, z].Perm [a, b, c, d] ∧ allLeft w x y z = true := by
  have sum : cross b c d + cross a b d = cross a c d + cross a b c := by unfold cross; ring
  have outA (h : cross b c d ≠ 0) := (within_iff_of_area h).not.1 ha
  have outB (h : cross a c d ≠ 0) := (within_iff_of_area h).not.1 hb
  have outC (h : cross a b d ≠ 0) := (within_iff_of_area h).not.1 hc
  have outD (h : cross a b c ≠ 0) := (within_iff_of_area h).not.1 hd
  rw [cross_rotate a b c, cross_rotate a c d, cross_reverse a b d] at outA
  rw [cross_swap_last a b c, cross_rotate b c d, ← cross_rotate d a b] at outB
  rw [cross_swap_last b c d, cross_flip a d c, cross_swap_last a c d, neg_neg] at outC
  rw [cross_flip a c d] at outD
  have patterns := convex_signs sum area outA outB outC outD
  obtain ⟨o₁, o₂, o₃, o₄, o₅, o₆⟩ := allLeft_orders a b c d
  unfold quadrilateral
  by_cases h₁ : allLeft a b c d = true
  · exact ⟨a, b, c, d, if_pos h₁, .refl _, h₁⟩
  rw [if_neg h₁]
  by_cases h₂ : allLeft a b d c = true
  · exact ⟨a, b, d, c, if_pos h₂, .cons _ (.cons _ (.swap _ _ _)), h₂⟩
  rw [if_neg h₂]
  by_cases h₃ : allLeft a c b d = true
  · exact ⟨a, c, b, d, if_pos h₃, .cons _ (.swap _ _ _), h₃⟩
  rw [if_neg h₃]
  by_cases h₄ : allLeft a c d b = true
  · exact ⟨a, c, d, b, if_pos h₄, .cons _ (List.perm_append_comm (l₁ := [c, d]) (l₂ := [b])), h₄⟩
  rw [if_neg h₄]
  by_cases h₅ : allLeft a d b c = true
  · exact ⟨a, d, b, c, if_pos h₅, .cons _ (List.perm_append_comm (l₁ := [d]) (l₂ := [b, c])), h₅⟩
  rw [if_neg h₅]
  refine ⟨a, d, c, b, rfl, .cons _ (List.reverse_perm [b, c, d]), o₆.2 ?_⟩
  exact ((((patterns.resolve_left (h₁ ∘ o₁.2)).resolve_left (h₂ ∘ o₂.2)).resolve_left (h₃ ∘ o₃.2)).resolve_left
    (h₄ ∘ o₄.2)).resolve_left (h₅ ∘ o₅.2)

/-! ### The least edge distance -/

theorem least_spec (e : Int) (es : List Int) : least (e :: es) ∈ e :: es ∧ ∀ x ∈ e :: es, least (e :: es) ≤ x := by
  induction es generalizing e with
  | nil => simp [least]
  | cons f es ih =>
    have unroll : least (e :: f :: es) = least (min e f :: es) := rfl
    obtain ⟨hmem, hle⟩ := ih (min e f)
    rw [unroll]
    have low : least (min e f :: es) ≤ min e f := hle _ List.mem_cons_self
    refine ⟨?_, fun x hx => ?_⟩
    · rcases List.mem_cons.1 hmem with h | h
      · rw [h]
        rcases min_choice e f with h' | h' <;> simp [h']
      · exact List.mem_cons_of_mem _ (List.mem_cons_of_mem _ h)
    · rcases List.mem_cons.1 hx with rfl | hx
      · exact low.trans (min_le_left _ _)
      · rcases List.mem_cons.1 hx with rfl | hx
        · exact low.trans (min_le_right _ _)
        · exact hle x (List.mem_cons_of_mem _ hx)

/-- The edges of a ring, each from a vertex to the next, the last to the first. -/
def ringEdges (ring : List Point) : List (Point × Point) := ring.zip (ring.tail ++ ring.head?.toList)

theorem edgeDistances_three (p a b c : Point) :
    edgeDistances p [a, b, c] = (ringEdges [a, b, c]).map fun e => edgeDistance p e.1 e.2 := rfl

theorem edgeDistances_four (p a b c d : Point) :
    edgeDistances p [a, b, c, d] = (ringEdges [a, b, c, d]).map fun e => edgeDistance p e.1 e.2 := rfl

/-- The least over a ring is the distance from one of its edges, and at most that from each. -/
theorem least_edgeDistances {ring : List Point} {e : Point × Point} {es : List (Point × Point)}
    (hr : ringEdges ring = e :: es) (h : edgeDistances p ring = (ringEdges ring).map fun e => edgeDistance p e.1 e.2) :
    (∃ e ∈ ringEdges ring, edgeDistance p e.1 e.2 = least (edgeDistances p ring))
      ∧ ∀ e ∈ ringEdges ring, least (edgeDistances p ring) ≤ edgeDistance p e.1 e.2 := by
  have spec := least_spec (edgeDistance p e.1 e.2) (es.map fun e => edgeDistance p e.1 e.2)
  rw [← List.map_cons (f := fun e : Point × Point => edgeDistance p e.1 e.2), ← hr, ← h] at spec
  obtain ⟨hmem, hle⟩ := spec
  refine ⟨?_, fun e' he' => ?_⟩
  · rw [h] at hmem
    exact List.mem_map.1 (h ▸ hmem)
  · exact hle _ (h.symm ▸ List.mem_map.2 ⟨e', he', rfl⟩)

theorem least_three (p a b c : Point) :
    (∃ e ∈ ringEdges [a, b, c], edgeDistance p e.1 e.2 = least (edgeDistances p [a, b, c]))
      ∧ ∀ e ∈ ringEdges [a, b, c], least (edgeDistances p [a, b, c]) ≤ edgeDistance p e.1 e.2 :=
  least_edgeDistances rfl (edgeDistances_three p a b c)

theorem least_four (p a b c d : Point) :
    (∃ e ∈ ringEdges [a, b, c, d], edgeDistance p e.1 e.2 = least (edgeDistances p [a, b, c, d]))
      ∧ ∀ e ∈ ringEdges [a, b, c, d], least (edgeDistances p [a, b, c, d]) ≤ edgeDistance p e.1 e.2 :=
  least_edgeDistances rfl (edgeDistances_four p a b c d)

theorem leastOver_three (p a b c : Point) :
    LeastOver p [a, b, c] (marginOfLeast (least (edgeDistances p [a, b, c]))) :=
  ⟨_, rfl, least_three p a b c⟩

theorem leastOver_four (p a b c d : Point) :
    LeastOver p [a, b, c, d] (marginOfLeast (least (edgeDistances p [a, b, c, d]))) :=
  ⟨_, rfl, least_four p a b c d⟩

/-! ### The margin of three and of four points -/

theorem marginOf_three_flat (h : cross a b c = 0) : marginOf (some p) [a, b, c] = .degenerate := by
  simp [marginOf, noArea, collinear, h]

theorem marginOf_three (h : cross a b c ≠ 0) :
    marginOf (some p) [a, b, c] = marginOfLeast (least (edgeDistances p (triangle a b c))) := by
  simp [marginOf, noArea, collinear, h, hull]

theorem marginOf_four_flat (h : cross a b c = 0 ∧ cross a b d = 0 ∧ cross a c d = 0 ∧ cross b c d = 0) :
    marginOf (some p) [a, b, c, d] = .degenerate := by
  simp [marginOf, noArea_four_iff.2 h]

theorem marginOf_four (h : ¬(cross a b c = 0 ∧ cross a b d = 0 ∧ cross a c d = 0 ∧ cross b c d = 0)) :
    marginOf (some p) [a, b, c, d] = marginOfLeast (least (edgeDistances p (hull [a, b, c, d]))) := by
  have area : noArea [a, b, c, d] = false := Bool.eq_false_iff.2 fun hn => h (noArea_four_iff.1 hn)
  simp [marginOf, area]

/-! ### The exact distance -/

/-- Rounding makes an edge's distance no greater than the exact one: the cross product over the edge's true length (R140,
R141). -/
theorem edgeDistance_le_exact (p : Point) (ha : a.InFrame) (hb : b.InFrame) (hab : a ≠ b) :
    ((edgeDistance p a b : Int) : ℝ) ≤
      ((cross a b p : Int) : ℝ) / Real.sqrt (((b.x - a.x) ^ 2 + (b.y - a.y) ^ 2 : Int) : ℝ) := by
  have pos := squaredLength_pos hab
  have range : squaredLength a b < 2 ^ 36 := (squaredLength_lt ha hb).trans (by decide)
  have hL : (0 : Int) < edgeLength a b p := Int.natCast_pos.2 (edgeLength_pos p range pos)
  rw [← squaredLength_cast, Int.cast_natCast, edgeDistance_eq_ediv]
  have root : 0 < Real.sqrt (squaredLength a b : ℝ) := Real.sqrt_pos.2 (Nat.cast_pos.2 pos)
  rw [le_div_iff₀ root]
  have rounded : ((cross a b p / (edgeLength a b p : Int) : Int) : ℝ) * (edgeLength a b p : ℝ) ≤ (cross a b p : ℝ) := by
    exact_mod_cast Int.ediv_mul_le (cross a b p) hL.ne'
  refine le_trans ?_ rounded
  rcases le_or_gt 0 (cross a b p) with hc | hc
  · have long : squaredLength a b ≤ edgeLength a b p ^ 2 := (edgeLength_isLeast hc range pos).1
    have quotient : (0 : ℝ) ≤ ((cross a b p / (edgeLength a b p : Int) : Int) : ℝ) :=
      Int.cast_nonneg (Int.ediv_nonneg hc hL.le)
    refine mul_le_mul_of_nonneg_left (Real.sqrt_le_iff.2 ⟨Nat.cast_nonneg _, ?_⟩) quotient
    exact_mod_cast long
  · have short : edgeLength a b p ^ 2 ≤ squaredLength a b := (edgeLength_isGreatest hc range).1
    have quotient : ((cross a b p / (edgeLength a b p : Int) : Int) : ℝ) ≤ 0 :=
      Int.cast_nonpos.2 (Int.ediv_neg_of_neg_of_pos hc hL).le
    refine mul_le_mul_of_nonpos_left (Real.le_sqrt_of_sq_le ?_) quotient
    exact_mod_cast short

/-- So the least over a ring is at most the exact distance from each edge (R141). -/
theorem least_le_exact {first : Point} {ring : List Point} {e : Point × Point}
    (least_le : ∀ e ∈ ring.zip (ring.tail ++ [first]), least (edgeDistances p ring) ≤ edgeDistance p e.1 e.2)
    (hframe : ∀ v ∈ p :: ring, -32768 ≤ v.x ∧ v.x ≤ 32767 ∧ -32768 ≤ v.y ∧ v.y ≤ 32767)
    (hne : ∀ e ∈ ring.zip (ring.tail ++ [first]), e.1 ≠ e.2) (he : e ∈ ring.zip (ring.tail ++ [first]))
    (hfirst : first ∈ ring) : ((least (edgeDistances p ring) : Int) : ℝ) ≤
      ((cross e.1 e.2 p : Int) : ℝ) / Real.sqrt (((e.2.x - e.1.x) ^ 2 + (e.2.y - e.1.y) ^ 2 : Int) : ℝ) := by
  have frame (v : Point) (hv : v ∈ p :: ring) : v.InFrame := by
    obtain ⟨h₁, h₂, h₃, h₄⟩ := hframe v hv
    exact ⟨⟨h₁, h₂⟩, h₃, h₄⟩
  obtain ⟨he₁, he₂⟩ := List.of_mem_zip he
  have tail : e.2 ∈ ring := (List.mem_append.1 he₂).elim List.mem_of_mem_tail fun h => List.mem_singleton.1 h ▸ hfirst
  exact (Int.cast_le.2 (least_le e he)).trans (edgeDistance_le_exact p
    (frame _ (List.mem_cons_of_mem _ he₁)) (frame _ (List.mem_cons_of_mem _ tail)) (hne e he))

theorem toInt_ofInt_of_range {d : Int} (hlo : -32767 ≤ d) (hhi : d ≤ 32767) : (BitVec.ofInt 16 d).toInt = d := by
  rw [BitVec.toInt_ofInt]
  exact Int.bmod_eq_of_le (by omega) (by omega)

end Sys2Proof.Machine
end

section
namespace Sys2Proof.Proofs

open Machine Claims

theorem marginIsOverTheHull : MarginIsOverTheHull := by
  refine ⟨fun _ => rfl, fun p => ⟨fun points few => marginOf_degenerate (.inr few), fun a b c => ⟨marginOf_three_flat,
    fun h => ?_, fun h => ?_⟩, fun a b c d => ?_⟩⟩
  · rw [marginOf_three h.ne', triangle, if_pos h]
    exact leastOver_three p a b c
  · rw [marginOf_three h.ne, triangle, if_neg (not_lt.2 h.le)]
    exact leastOver_three p a c b
  · dsimp only
    refine ⟨marginOf_four_flat, fun area => ?_⟩
    rw [marginOf_four area]
    simp only [hull]
    refine ⟨fun ha => ?_, fun ha hb => ?_, fun ha hb hc => ?_, fun ha hb hc hd => ?_, fun ha hb hc hd => ?_⟩
    · rw [if_pos (inTriangle_iff.2 ha), marginOf_three]
      refine area_of_within ha fun ⟨h₁, h₂, h₃, h₄⟩ => area ⟨?_, ?_, ?_, h₄⟩
      · rwa [cross_rotate] at h₁
      · rwa [cross_reverse, neg_eq_zero] at h₃
      · rwa [cross_rotate] at h₂
    · rw [if_neg (mt inTriangle_iff.1 ha), if_pos (inTriangle_iff.2 hb), marginOf_three]
      refine area_of_within hb fun ⟨h₁, h₂, h₃, h₄⟩ => area ⟨?_, ?_, h₄, ?_⟩
      · rwa [cross_swap_last, neg_eq_zero] at h₁
      · rwa [← cross_rotate] at h₃
      · rwa [cross_rotate] at h₂
    · rw [if_neg (mt inTriangle_iff.1 ha), if_neg (mt inTriangle_iff.1 hb), if_pos (inTriangle_iff.2 hc), marginOf_three]
      refine area_of_within hc fun ⟨h₁, h₂, h₃, h₄⟩ => area ⟨h₁, h₄, ?_, ?_⟩
      · rwa [cross_flip, cross_swap_last, neg_neg] at h₃
      · rwa [cross_swap_last, neg_eq_zero] at h₂
    · rw [if_neg (mt inTriangle_iff.1 ha), if_neg (mt inTriangle_iff.1 hb), if_neg (mt inTriangle_iff.1 hc),
        if_pos (inTriangle_iff.2 hd), marginOf_three]
      refine area_of_within hd fun ⟨h₁, h₂, h₃, h₄⟩ => area ⟨h₄, h₁, ?_, h₂⟩
      rwa [cross_flip, neg_eq_zero] at h₃
    · obtain ⟨w, x, y, z, hq, perm, left⟩ := quadrilateral_allLeft area ha hb hc hd
      rw [if_neg (mt inTriangle_iff.1 ha), if_neg (mt inTriangle_iff.1 hb), if_neg (mt inTriangle_iff.1 hc),
        if_neg (mt inTriangle_iff.1 hd), hq]
      obtain ⟨h₁, h₂, h₃, h₄⟩ := allLeft_iff.1 left
      exact ⟨w, x, y, z, perm, h₁, h₂, h₃, h₄, leastOver_four p w x y z⟩

theorem marginIsAtMostTheExactDistance : MarginIsAtMostTheExactDistance := by
  refine ⟨fun p a b c more => ?_, fun d hd => ⟨fun hlow => ?_, fun hin => ?_⟩⟩
  · cases more with
    | none =>
      intro ring edges hframe hne e he
      exact least_le_exact (ring := ring) (least_three p a b c).2 hframe hne he (by simp [ring])
    | some d =>
      intro ring edges hframe hne e he
      exact least_le_exact (ring := ring) (least_four p a b c d).2 hframe hne he (by simp [ring])
  · rw [marginOfLeast, if_pos hlow]
    exact ⟨by decide, rfl⟩
  · rw [marginOfLeast, if_neg (by omega)]
    refine ⟨toInt_ofInt_of_range hin hd, fun h => if_pos h, fun h => ?_, fun h => ?_⟩
    · exact (if_neg (by omega)).trans (if_pos h)
    · exact (if_neg (by omega)).trans (if_neg (by omega))

/-- Settles O42: the hull by the triangle test and the signs of the turns, the bound by the rounding of each edge. -/
theorem marginIsNeverOptimistic : Obligations.MarginIsNeverOptimistic :=
  ⟨marginIsOverTheHull, marginIsAtMostTheExactDistance⟩

end Sys2Proof.Proofs
end

section
/-! SUPPORT. What a cascade keeps: a relation that its elementary operations have, the cascade has too. A halt cause, a
delivery with the trips it fires, the margins and the lift readiness are cascades (R48, R59, R105, R115, R118, R120, R127, R138,
R142, R144, R150, R151, R156). -/

namespace Sys2Proof.Machine

variable {s t : State} {R : State → State → Prop}

/-! ### The entry to HALTED in parts -/

/-- The gait HALTED for a cause, walking left (R119, R127). -/
def State.haltNamed (s : State) (c : HaltCause) : State :=
  (s.leaveTo .halted).setSeq { (s.leaveTo .halted).seq with haltReason := some c }

/-- The lifts withdrawn, the legs braced, the tip condition ended and the GAIT node pended (R127). -/
def State.haltNoted (s : State) (c : HaltCause) : State :=
  let braced := Leg.all.foldl State.braceStance (Leg.all.foldl State.withdrawLift (s.haltNamed c))
  ({ braced with attn := { braced.attn with tipHolds := false } } : State).pend nodeGait (.gaitHalted c)

theorem State.haltEntry_eq (s : State) (c : HaltCause) : s.haltEntry c =
    if s.seq.gait = .halted ∨ c.applies s.seq.gait = false then s
    else if s.seq.gait = .off then Leg.all.foldl State.seek (s.haltNoted c) else s.haltNoted c := by
  simp only [State.haltEntry, State.haltNoted, State.haltNamed]

/-! ### Frames -/

/-- A relation that holds across the elementary operations of a halt cause and of a delivery: a withdrawal, a take, an order,
and the changes of the sequencer that do not go to OFF, of the trip unit and of the attention nodes, the LEG node apart. -/
structure Frame (R : State → State → Prop) : Prop where
  refl : ∀ s, R s s
  trans : ∀ {s t u}, R s t → R t u → R s u
  setSeq : ∀ (s : State) (q : Sequencer), (q.gait = .off → s.seq.gait = .off) → R s (s.setSeq q)
  setTrips : ∀ s v, R s (s.setTrips v)
  told : ∀ (s : State) (b : Bool), R s { s with attn := { s.attn with tipHolds := b } }
  pend : ∀ s n d, n ≠ nodeLeg → R s (s.pend n d)
  sendOrder : ∀ s l k x y z, R s (s.sendOrder l k x y z)
  withdrawLift : ∀ s l, R s (s.withdrawLift l)
  seek : ∀ s l, R s (s.seek l)

/-- And across those of a margin's computation. -/
structure MarginFrame (R : State → State → Prop) : Prop extends Frame R where
  flagFailed : ∀ s i, R s (s.flagFailed i)
  recordCurrent : ∀ s, R s s.recordCurrent

/-- And across those of an evaluation of lift readiness. -/
structure GaitFrame (R : State → State → Prop) : Prop extends MarginFrame R where
  recordLift : ∀ s l, R s (s.recordLift l)
  failReserved : ∀ s l i, R s (s.failReserved l i)

namespace Frame

variable (F : Frame R)
include F

theorem foldl {α : Type} {f : State → α → State} (hf : ∀ s a, R s (f s a)) (as : List α) (s : State) :
    R s (as.foldl f s) := by
  induction as generalizing s with
  | nil => exact F.refl _
  | cons a as ih => exact F.trans (hf s a) (ih _)

theorem settleGait (s : State) : R s s.settleGait := by
  unfold State.settleGait
  cases s.seq.gait with
  | walking =>
    dsimp only
    split
    · exact F.refl _
    · exact F.trans (F.setSeq _ _ (by nofun)) (F.pend _ _ _ (by decide))
  | holding =>
    dsimp only
    split
    · exact F.setSeq _ _ (by nofun)
    · exact F.refl _
  | off | standing | stopping | halted => exact F.refl _

theorem addReason (s : State) (x : HoldReason) : R s (s.addReason x) := F.trans (F.setSeq _ _ (by exact id)) (F.settleGait _)

theorem braceStance (s : State) (l : Leg) : R s (s.braceStance l) := by
  unfold State.braceStance
  split
  · exact F.sendOrder ..
  · exact F.refl _

theorem haltNoted (s : State) (c : HaltCause) : R s (s.haltNoted c) := by
  have named : R s (s.haltNamed c) := F.trans (F.setSeq _ _ (by nofun)) (F.setSeq _ _ (by nofun))
  unfold State.haltNoted
  generalize s.haltNamed c = named' at named ⊢
  have withdrawn := F.trans named (F.foldl F.withdrawLift Leg.all named')
  generalize Leg.all.foldl State.withdrawLift named' = withdrawn' at withdrawn ⊢
  have braced := F.trans withdrawn (F.foldl F.braceStance Leg.all withdrawn')
  exact F.trans (F.trans braced (F.told _ false)) (F.pend _ _ _ (by decide))

theorem haltEntry (s : State) (c : HaltCause) : R s (s.haltEntry c) := by
  rw [State.haltEntry_eq]
  split
  · exact F.refl _
  split
  · exact F.trans (F.haltNoted s c) (F.foldl F.seek Leg.all _)
  · exact F.haltNoted s c

theorem fireTrip (s : State) (e : Bool) (n : Fin 4) : R s (s.fireTrip e n) := by
  unfold State.fireTrip
  dsimp only
  have fired : R s ((s.setTrip n { s.trip n with state := .fired, timer := .stopped }).pend nodeTrip (.trip n)) :=
    F.trans (F.setTrips _ _) (F.pend _ _ _ (by decide))
  split
  · exact fired
  · split
    · exact F.trans fired (F.setSeq _ _ (by exact id))
    · exact F.trans fired (F.addReason _ _)
  · exact F.trans fired (F.haltEntry _ _)

theorem testTrip (s : State) (e : Bool) (changed truths : BitVec 8) (n : Fin 4) : R s (s.testTrip e changed truths n) := by
  unfold State.testTrip
  dsimp only
  split
  · exact F.trans (F.setTrips _ _) (F.fireTrip _ _ _)
  · exact F.setTrips _ _

theorem deliverOnly (s : State) (e : Bool) (src : Source) (l : Leg) (v : Int) : R s (s.deliverOnly e src l v) :=
  F.trans (F.setTrips _ _) (F.foldl (fun s n => F.testTrip s e _ _ n) _ _)

theorem recountOverflow (b : State) (h : R s t) : R s (b.recountOverflow t) := by
  unfold State.recountOverflow
  split
  · exact F.trans h (F.deliverOnly ..)
  · exact h

theorem deliver (s : State) (e : Bool) (src : Source) (l : Leg) (v : Int) : R s (s.deliver e src l v) :=
  F.recountOverflow s (F.deliverOnly ..)

theorem recountIf (s : State) (b : Bool) : R s (s.recountIf b) := by
  unfold State.recountIf
  split
  · exact F.deliver ..
  · exact F.refl _

theorem haltCause (s : State) (c : HaltCause) : R s (s.haltCause c) := F.recountOverflow s (F.haltEntry s c)

theorem testTip (s : State) : R s s.testTip := by
  unfold State.testTip
  split
  · exact F.trans (F.trans (F.told _ true) (F.pend _ _ _ (by decide))) (F.haltCause _ _)
  · exact F.refl _

end Frame

namespace MarginFrame

variable (F : MarginFrame R)
include F

theorem verifySupport (s : State) (skip : Option Leg) : R s (s.verifySupport skip).1 := by
  have member (acc : State × Bool) (l : Leg) : R acc.1 (verifyMember skip acc l).1 := by
    unfold verifyMember
    repeat' split
    · exact F.refl _
    · exact F.refl _
    · exact F.refl _
    · exact F.trans (F.flagFailed _ _) (F.haltCause _ _)
  have each (ls : List Leg) : ∀ acc : State × Bool, R acc.1 (ls.foldl (verifyMember skip) acc).1 := by
    induction ls with
    | nil => exact fun acc => F.refl _
    | cons l ls ih => exact fun acc => F.trans (member acc l) (ih _)
  exact each Leg.all (s, false)

theorem computeCurrent (s : State) : R s s.computeCurrent := by
  unfold State.computeCurrent
  split
  · exact F.refl _
  · exact F.trans (F.trans (F.trans (F.verifySupport s none) (F.recordCurrent _)) (F.testTip _)) (F.deliver ..)

end MarginFrame

namespace GaitFrame

variable (F : GaitFrame R)
include F

theorem computeLift (s : State) (l : Leg) : R s (s.computeLift l) := by
  have served := F.trans (F.trans (F.verifySupport s (some l)) (F.recordLift _ l))
    (F.deliver _ true .liftMargin .lf ((s.verifySupport (some l)).1.recordLift l).bal.lift.value.toInt)
  unfold State.computeLift
  dsimp only
  split
  · exact F.trans served (F.computeCurrent _)
  · exact served

theorem afterFront (s : State) (l : Leg) : R s (s.afterFront l) := by
  unfold State.afterFront
  split
  · exact F.failReserved ..
  all_goals exact F.refl _

theorem closeEvaluation (s : State) (l : Leg) (a b : Bool) : R s (s.closeEvaluation l a b) := by
  have settled : R s (s.putThree s.liftUnsafe (!a) b).settleGait := F.trans (F.setSeq _ _ (by exact id)) (F.settleGait _)
  unfold State.closeEvaluation
  dsimp only
  split
  · exact F.trans settled (F.setSeq _ _ (by exact id))
  · exact settled

theorem evaluateFrom (s : State) (l : Leg) : R s (s.evaluateFrom l) := by
  have computed := F.trans (F.afterFront s l) (F.computeLift _ l)
  unfold State.evaluateFrom
  dsimp only
  split
  · exact F.trans computed (F.closeEvaluation ..)
  · exact computed

theorem evaluateOnce (s : State) : R s s.evaluateOnce := by
  unfold State.evaluateOnce
  repeat' split
  · exact F.trans (F.setSeq _ _ (by exact id)) (F.settleGait _)
  · exact F.evaluateFrom ..
  · exact F.refl _

theorem evaluate (s : State) : R s s.evaluate := by
  have each (n : Nat) : ∀ s, R s (evaluations n s) := by
    induction n with
    | zero => exact fun s => F.refl _
    | succ n ih =>
      intro s
      unfold evaluations
      split
      · exact F.trans (F.evaluateOnce s) (ih _)
      · exact F.evaluateOnce s
  exact each _ s

theorem reportToSequencer (s : State) (l : Leg) : R s (s.reportToSequencer l) := by
  unfold State.reportToSequencer
  split
  · exact F.evaluate s
  · exact F.refl _

theorem removeReason (s : State) (x : HoldReason) : R s (s.removeReason x) := by
  have removed : R s (s.putReason x false).settleGait := F.trans (F.setSeq _ _ (by exact id)) (F.settleGait _)
  unfold State.removeReason
  dsimp only
  repeat' split
  · exact F.trans removed (F.evaluate _)
  · exact removed
  · exact F.refl _

end GaitFrame

end Sys2Proof.Machine
end

section
/-! SUPPORT. Three things that cascades keep: the margins of the balance monitor by halts and deliveries, the LEG node, and the
records that legs stand on (R138, R144, R162). -/

namespace Sys2Proof.Machine

open Claims

variable {s t : State} {l m : Leg} {i : RecordIndex} {h : Handle}

/-! ### What the operations leave of the monitor and the nodes -/

theorem State.node_pend_ne (s : State) {n k : NodeNumber} (d : Detail) (hn : n ≠ k) : (s.pend n d).node k = s.node k :=
  (getElem_set_node n k).trans (if_neg hn)

theorem State.sendOrder_bal (k : OrderKind) (x y z : Word) : (s.sendOrder l k x y z).bal = s.bal := by
  unfold State.sendOrder
  dsimp only
  split <;> rfl

theorem State.sendOrder_attn (k : OrderKind) (x y z : Word) : (s.sendOrder l k x y z).attn = s.attn := by
  unfold State.sendOrder
  dsimp only
  split <;> rfl

theorem State.modRecord_bal (f : FootRecord → FootRecord) : (s.modRecord i f).bal = s.bal := by
  unfold State.modRecord
  split <;> rfl

theorem State.modRecord_attn (f : FootRecord → FootRecord) : (s.modRecord i f).attn = s.attn := by
  unfold State.modRecord
  split <;> rfl

theorem State.handBackTarget_attn : (s.handBackTarget l h).attn = s.attn := by
  unfold State.handBackTarget
  dsimp only
  split
  · exact State.modRecord_attn _
  · exact (State.modRecord_attn _).trans (State.modRecord_attn _)

theorem State.handBackTarget_bal : (s.handBackTarget l h).bal = s.bal := by
  unfold State.handBackTarget
  dsimp only
  split
  · exact State.modRecord_bal _
  · exact (State.modRecord_bal _).trans (State.modRecord_bal _)

theorem State.withdrawLift_attn : (s.withdrawLift l).attn = s.attn := by
  unfold State.withdrawLift
  repeat' split
  · exact (State.sendOrder_attn ..).trans State.handBackTarget_attn
  · exact State.sendOrder_attn ..
  · rfl

theorem State.withdrawLift_bal : (s.withdrawLift l).bal = s.bal := by
  unfold State.withdrawLift
  repeat' split
  · exact (State.sendOrder_bal ..).trans State.handBackTarget_bal
  · exact State.sendOrder_bal ..
  · rfl

/-- The state after a take answered CHECK, whatever report of a new front it leaves (R57, R105). -/
def State.frontFailed (s : State) (l : Leg) (q : Handle) (f : PerLeg Bool) : State :=
  { freedByCheck (s.setQueue l ((s.queue l).filter fun e => e.index ≠ q.index)) q.index with newFronts := f }

/-- The front taken as the target of a leg in SWING, before PLACE is sent (R57, R105). -/
def State.frontSwung (s : State) (l : Leg) (q : Handle) (r : FootRecord) : State :=
  ((s.setQueue l ((s.queue l).filter fun e => e.index ≠ q.index)).setSlot q.index
    (some { r with state := .target l, tag := s.seq.stride })).setLeg l
      { s.leg l with phase := .swing, target := some q, bounce := 0, swingTimer := .running (s.paramNat 6) }

/-- The take of a leg changes nothing, or takes its front, or frees it, and the two last in SEEKING alone (R57, R105). -/
theorem State.seek_cases {P : State → Prop} (same : P s)
    (failed : ∀ q r f, (s.leg l).phase = .seeking → s.slot q.index = some r → r.state = .reserved l →
      P (s.frontFailed l q f))
    (swung : ∀ q r x y z, (s.leg l).phase = .seeking → s.slot q.index = some r → r.state = .reserved l →
      P ((s.frontSwung l q r).sendOrder l .place x y z)) : P (s.seek l) := by
  by_cases asks : (s.leg l).phase = .seeking ∧ s.seq.gait ≠ .off ∧ s.rebasing = false
  · rw [State.seek_of_asks asks]
    unfold State.takeForSeeking
    cases hf : s.frontTest l with
    | empty => exact same
    | inadmissible => exact same
    | failed q =>
      obtain ⟨rest, r, hq, hr, hst, -⟩ := State.frontTest_passes (.inr hf)
      dsimp only
      rw [State.failFront_eq hr]
      split
      · exact failed q r s.newFronts asks.1 hr hst
      · exact failed q r _ asks.1 hr hst
    | usable q =>
      obtain ⟨rest, r, hq, hr, hst, hsl, hc⟩ := State.frontTest_passes (.inl hf)
      have sound : checkCode (coveredWords r.content (s.gen q.index)) = r.content.check := by
        by_contra hv
        have failing := (State.frontTest_admissible hq hr hst (not_or.2 ⟨by simp [hsl], Int.not_lt.2 hc⟩)).1 hv
        exact FrontTest.noConfusion (failing.symm.trans hf)
      dsimp only
      rw [State.enterSwing_eq hr hst sound]
      exact swung q r _ _ _ asks.1 hr hst
  · rwa [State.seek_of_not asks]

theorem State.node_freedByCheck {n : NodeNumber} (hn : n ≠ nodeRecord) : (freedByCheck s i).node n = s.node n :=
  State.node_pend_ne _ _ hn.symm

theorem State.seek_bal : (s.seek l).bal = s.bal :=
  State.seek_cases (P := fun t => t.bal = s.bal) rfl (fun _ _ _ _ _ _ => rfl) fun _ _ _ _ _ _ _ _ => State.sendOrder_bal ..

/-- A take pends no node but RECORD and leaves the tip condition. -/
theorem State.seek_attn : (s.seek l).attn.tipHolds = s.attn.tipHolds ∧ ∀ n, n ≠ nodeRecord →
    (s.seek l).node n = s.node n := by
  refine State.seek_cases (P := fun t => t.attn.tipHolds = s.attn.tipHolds ∧ ∀ n, n ≠ nodeRecord → t.node n = s.node n)
    ⟨rfl, fun _ _ => rfl⟩ (fun _ _ _ _ _ _ => ⟨rfl, fun n hn => State.node_freedByCheck hn⟩) fun q r x y z _ _ _ => ?_
  have attn : ((s.frontSwung l q r).sendOrder l .place x y z).attn = s.attn := State.sendOrder_attn ..
  exact ⟨congrArg Attention.tipHolds attn, fun n _ => congrArg (fun a : Attention => a.nodes[n]) attn⟩

/-! ### The last lift margin -/

/-- The last lift margin and its leg stand (R144). -/
def KeepsLift (s t : State) : Prop := t.bal.lift = s.bal.lift ∧ t.bal.liftLeg = s.bal.liftLeg

theorem KeepsLift.of_bal (h : t.bal = s.bal) : KeepsLift s t := by rw [KeepsLift, h]; exact ⟨rfl, rfl⟩

theorem State.flagFailed_bal : (s.flagFailed i).bal = s.bal := State.modRecord_bal (s := s.setCheckFlag) _

theorem keepsLift_marginFrame : MarginFrame KeepsLift where
  refl _ := ⟨rfl, rfl⟩
  trans h h' := ⟨h'.1.trans h.1, h'.2.trans h.2⟩
  setSeq _ _ _ := ⟨rfl, rfl⟩
  setTrips _ _ := ⟨rfl, rfl⟩
  told _ _ := ⟨rfl, rfl⟩
  pend _ _ _ _ := ⟨rfl, rfl⟩
  sendOrder _ _ _ _ _ _ := .of_bal (State.sendOrder_bal ..)
  withdrawLift _ _ := .of_bal State.withdrawLift_bal
  seek _ _ := .of_bal State.seek_bal
  flagFailed _ _ := .of_bal State.flagFailed_bal
  recordCurrent _ := ⟨rfl, rfl⟩

/-! ### The LEG node -/

/-- The LEG node stands (R162). -/
def KeepsLegNode (s t : State) : Prop := t.node nodeLeg = s.node nodeLeg

theorem KeepsLegNode.of_attn (h : t.attn = s.attn) : KeepsLegNode s t := congrArg (fun a : Attention => a.nodes[nodeLeg]) h

theorem keepsLegNode_gaitFrame : GaitFrame KeepsLegNode where
  refl _ := rfl
  trans h h' := h'.trans h
  setSeq _ _ _ := rfl
  setTrips _ _ := rfl
  told _ _ := rfl
  pend s _ d hn := State.node_pend_ne s d hn
  sendOrder _ _ _ _ _ _ := .of_attn (State.sendOrder_attn ..)
  withdrawLift _ _ := .of_attn State.withdrawLift_attn
  seek _ _ := State.seek_attn.2 nodeLeg (by decide)
  flagFailed s i :=
    (State.node_pend_ne _ _ (by decide)).trans
      (KeepsLegNode.of_attn (s := s.setCheckFlag) (State.modRecord_attn (s := s.setCheckFlag) _))
  recordCurrent _ := rfl
  recordLift _ _ := rfl
  failReserved s l i := by
    cases hr : s.slot i with
    | none =>
      have freed : (s.dropFromQueue l i).setCheckFlag.slot i = none := hr
      rw [State.failReserved, State.freeFailed, State.freeRecord, freed]
      rfl
    | some r =>
      rw [State.failReserved, State.freeFailed_eq_freedByCheck (s := s.dropFromQueue l i) hr]
      exact State.node_freedByCheck (by decide)

/-! ### The records that legs stand on -/

theorem State.slot_modRecord (s : State) (i j : RecordIndex) (f : FootRecord → FootRecord) :
    (s.modRecord i f).slot j = if i = j then (s.slot j).map f else s.slot j := by
  unfold State.modRecord
  by_cases e : i = j
  · subst e
    rw [if_pos rfl]
    cases hr : s.slot i with
    | none => exact hr
    | some r => exact State.slot_setSlot_self _ _ _
  · rw [if_neg e]
    cases hr : s.slot i with
    | none => rfl
    | some r => exact State.slot_setSlot_ne s _ e

theorem State.gen_modRecord (s : State) (i j : RecordIndex) (f : FootRecord → FootRecord) :
    (s.modRecord i f).gen j = s.gen j := by
  unfold State.modRecord
  split <;> rfl

theorem State.gen_sendOrder (k : OrderKind) (x y z : Word) : (s.sendOrder l k x y z).gen i = s.gen i := by
  unfold State.sendOrder
  dsimp only
  split <;> rfl

/-- The LOADED records stand with their generations, and each leg that stands keeps its stance record. -/
structure KeepsStances (s t : State) : Prop where
  loaded : ∀ i r o f, s.slot i = some r → r.state = .loaded o f → t.slot i = some r ∧ t.gen i = s.gen i
  stance : ∀ l, (s.leg l).phase = .stance ∨ (s.leg l).phase = .unloading →
    ((t.leg l).phase = .stance ∨ (t.leg l).phase = .unloading) ∧ (t.leg l).stance = (s.leg l).stance

theorem KeepsStances.of_eq (hs : t.store = s.store) (hl : t.legs = s.legs) : KeepsStances s t where
  loaded i r o f hr _ := by
    have slot : t.slot i = s.slot i := congrArg (fun v : Store => v.slots[i]) hs
    have gen : t.gen i = s.gen i := congrArg (fun v : Store => v.gens[i]) hs
    exact ⟨slot.trans hr, gen⟩
  stance l h := by
    have leg : t.leg l = s.leg l := congrArg (PerLeg.get · l) hl
    rw [leg]
    exact ⟨h, rfl⟩

theorem FootRecord.handBack_of_ne {r : FootRecord} {stride : BitVec 12} (h : r.state ≠ .target l) :
    r.handBack stride l = r := if_neg h

theorem FootRecord.unreserve_of_ne {r : FootRecord} {stride : BitVec 12} (h : r.state ≠ .reserved l) :
    r.unreserve stride l = r := if_neg h

section
variable {r : FootRecord}

theorem State.slot_modRecord_of_fixed {f : FootRecord → FootRecord} {j : RecordIndex} (hr : s.slot i = some r)
    (hf : f r = r) : (s.modRecord j f).slot i = some r := by
  rw [State.slot_modRecord, hr, Option.map_some, hf, ite_self]

/-- A hand-back changes records that the leg holds alone. -/
theorem State.slot_handBackTarget (hr : s.slot i = some r) (ht : r.state ≠ .target l) (hq : r.state ≠ .reserved l) :
    (s.handBackTarget l h).slot i = some r := by
  have back : (s.modRecord h.index (FootRecord.handBack s.seq.stride l)).slot i = some r :=
    State.slot_modRecord_of_fixed hr (FootRecord.handBack_of_ne ht)
  unfold State.handBackTarget
  dsimp only
  split
  · exact back
  · exact State.slot_modRecord_of_fixed (s := (s.modRecord h.index (FootRecord.handBack s.seq.stride l)).setQueue l _) back
      (FootRecord.unreserve_of_ne hq)

theorem State.gen_handBackTarget : (s.handBackTarget l h).gen i = s.gen i := by
  unfold State.handBackTarget
  dsimp only
  split
  · exact State.gen_modRecord _ _ _ _
  · exact (State.gen_modRecord _ _ _ _).trans (State.gen_modRecord _ _ _ _)

theorem State.slot_withdrawLift (hr : s.slot i = some r) (ht : r.state ≠ .target l) (hq : r.state ≠ .reserved l) :
    (s.withdrawLift l).slot i = some r := by
  unfold State.withdrawLift
  repeat' split
  · exact (State.slot_sendOrder ..).trans (State.slot_handBackTarget hr ht hq)
  · exact (State.slot_sendOrder ..).trans hr
  · exact hr

theorem State.gen_withdrawLift : (s.withdrawLift l).gen i = s.gen i := by
  unfold State.withdrawLift
  repeat' split
  · exact (State.gen_sendOrder ..).trans State.gen_handBackTarget
  · exact State.gen_sendOrder ..
  · rfl

/-- A take changes records that are RESERVED for the leg alone. -/
theorem State.slot_seek (hr : s.slot i = some r) (hq : r.state ≠ .reserved l) :
    (s.seek l).slot i = some r ∧ (s.seek l).gen i = s.gen i := by
  have other {q : Handle} {r' : FootRecord} (hr' : s.slot q.index = some r') (hst : r'.state = .reserved l) :
      q.index ≠ i := by
    rintro rfl
    exact hq (Option.some.inj (hr.symm.trans hr') ▸ hst)
  refine State.seek_cases (P := fun t => t.slot i = some r ∧ t.gen i = s.gen i) ⟨hr, rfl⟩
    (fun q r' f _ hr' hst => ⟨?_, ?_⟩) fun q r' x y z _ hr' hst => ⟨?_, ?_⟩
  · exact (State.slot_setSlot_ne (s.setQueue l _) none (other hr' hst)).trans hr
  · exact (State.gen_setGen _ _ _ _).trans (if_neg (other hr' hst))
  · rw [State.slot_sendOrder]
    exact (State.slot_setSlot_ne (s.setQueue l _) _ (other hr' hst)).trans hr
  · exact State.gen_sendOrder ..

/-! ### Legs -/

theorem State.withdrawLift_of_ne (hp : (s.leg l).phase ≠ .unloading) : s.withdrawLift l = s := if_neg hp

/-- A withdrawal leaves the leg in STANCE without target (R94). -/
theorem State.withdrawLift_leg (hp : (s.leg l).phase = .unloading) : (s.withdrawLift l).leg l =
    { s.leg l with phase := .stance, target := none, bounce := 0, stepFlag := false, swingTimer := .stopped } := by
  have back {u : State} (hu : u.leg l = s.leg l) : (u.backToStance l).leg l =
      { s.leg l with phase := .stance, target := none, bounce := 0, stepFlag := false, swingTimer := .stopped } := by
    have sent : (u.backToStance l).legs = (u.setLeg l { u.leg l with
        phase := .stance, target := none, bounce := 0, stepFlag := false, swingTimer := .stopped }).legs :=
      State.sendOrder_legs ..
    rw [State.leg, sent, ← hu]
    exact State.leg_setLeg_self _ _ _
  rw [State.withdrawLift, if_pos hp]
  cases (s.leg l).target with
  | none => exact back rfl
  | some h => exact back (State.handBackTarget_leg l)

theorem State.withdrawLift_others : KeepsOthers l s (s.withdrawLift l) := by
  unfold State.withdrawLift
  repeat' split
  · exact State.handBackTarget_others.trans State.backToStance_others
  · exact State.backToStance_others
  · exact .refl _ _

theorem State.seek_others : KeepsOthers l s (s.seek l) := by
  refine State.seek_cases (P := KeepsOthers l s) (.refl _ _) (fun q r f _ _ _ => ?_) fun q r x y z _ _ _ => ?_
  · exact (KeepsOthers.setQueue l ((s.queue l).filter fun e => e.index ≠ q.index)).trans (.of_eq rfl rfl)
  · have dropped : KeepsOthers l s (s.setQueue l ((s.queue l).filter fun e => e.index ≠ q.index)) :=
      KeepsOthers.setQueue l _
    have taken := dropped.trans (u := (s.setQueue l ((s.queue l).filter fun e => e.index ≠ q.index)).setSlot q.index
      (some { r with state := .target l, tag := s.seq.stride })) (.of_eq rfl rfl)
    have swung : KeepsOthers l s (s.frontSwung l q r) := taken.trans (KeepsOthers.setLeg l _)
    exact swung.trans (.of_eq (State.sendOrder_legs ..) (State.sendOrder_queues ..))

theorem State.seek_of_not_seeking (hp : (s.leg l).phase ≠ .seeking) : s.seek l = s := State.seek_of_not fun h => hp h.1

end

theorem keepsStances_frame : Frame KeepsStances where
  refl _ := .of_eq rfl rfl
  trans h h' := by
    refine ⟨fun i r o f hr hst => ?_, fun l hp => ?_⟩
    · obtain ⟨slot, gen⟩ := h.loaded i r o f hr hst
      obtain ⟨slot', gen'⟩ := h'.loaded i r o f slot hst
      exact ⟨slot', gen'.trans gen⟩
    · obtain ⟨hp', hs⟩ := h.stance l hp
      obtain ⟨hp'', hs'⟩ := h'.stance l hp'
      exact ⟨hp'', hs'.trans hs⟩
  setSeq _ _ _ := .of_eq rfl rfl
  setTrips _ _ := .of_eq rfl rfl
  told _ _ := .of_eq rfl rfl
  pend _ _ _ _ := .of_eq rfl rfl
  sendOrder s l k x y z := by
    refine ⟨fun i r o f hr _ => ⟨(State.slot_sendOrder ..).trans hr, State.gen_sendOrder ..⟩, fun m hp => ?_⟩
    have leg : (s.sendOrder l k x y z).leg m = s.leg m := congrArg (PerLeg.get · m) (State.sendOrder_legs ..)
    rw [leg]
    exact ⟨hp, rfl⟩
  withdrawLift s l := by
    refine ⟨fun i r o f hr hst => ⟨State.slot_withdrawLift hr (by simp [hst]) (by simp [hst]), State.gen_withdrawLift⟩,
      fun m hp => ?_⟩
    by_cases hm : m = l
    · subst hm
      by_cases hu : (s.leg m).phase = .unloading
      · rw [State.withdrawLift_leg hu]
        exact ⟨.inl rfl, rfl⟩
      · rw [State.withdrawLift_of_ne hu]
        exact ⟨hp, rfl⟩
    · rw [(State.withdrawLift_others m hm).1]
      exact ⟨hp, rfl⟩
  seek s l := by
    refine ⟨fun i r o f hr hst => State.slot_seek hr (by simp [hst]), fun m hp => ?_⟩
    by_cases hm : m = l
    · subst hm
      rw [State.seek_of_not_seeking (by rcases hp with hp | hp <;> simp [hp])]
      exact ⟨hp, rfl⟩
    · rw [(State.seek_others m hm).1]
      exact ⟨hp, rfl⟩

/-- A member of the support set stays one across a cascade that keeps the stances. -/
theorem KeepsStances.supportOf {r : FootRecord} (h : KeepsStances s t) (hs : s.supportOf l = some (i, r)) :
    t.supportOf l = some (i, r) ∧ t.gen i = s.gen i := by
  obtain ⟨hp, ⟨q, hq, hi⟩, hr, hst⟩ := State.supportOf_eq_some.1 hs
  obtain ⟨hp', hq'⟩ := h.stance l hp
  obtain ⟨slot, gen⟩ := h.loaded i r l false hr hst
  exact ⟨State.supportOf_eq_some.2 ⟨hp', ⟨q, hq'.trans hq, hi⟩, slot, hst⟩, gen⟩

end Sys2Proof.Machine
end

section
/-! SUPPORT. The verification of a support set, member after member: what a member that fails leaves, and what the verification
of the others keeps of it (R20, R138, R142 to R144). -/

namespace Sys2Proof.Machine

open Claims

variable {s t u : State} {l k : Leg} {i j : RecordIndex} {r : FootRecord} {skip : Option Leg} {acc : State × Bool}

/-! ### One member -/

/-- The record of a member flagged, before the gait halts (R20, R34). -/
def State.memberFlagged (s : State) (l : Leg) (i : RecordIndex) (r : FootRecord) : State :=
  (({ s with attn := { s.attn with checkFlag := true } } : State).setSlot i
    (some { r with state := .loaded l true })).pend nodeRecord (.record ⟨i, s.gen i⟩ .check)

theorem memberVerified_of_sound (h : ¬MemberFails skip s l) : memberVerified skip s l = s := by
  unfold memberVerified
  by_cases hk : skip = some l
  · exact if_pos hk
  · rw [if_neg hk]
    cases hs : s.supportOf l with
    | none => rfl
    | some ir =>
      obtain ⟨i, r⟩ := ir
      exact if_pos (not_not.1 fun hv => h ⟨hk, i, r, hs, hv⟩)

theorem memberVerified_of_failing (h : MemberFails skip s l) (hs : s.supportOf l = some (i, r)) :
    memberVerified skip s l = (s.memberFlagged l i r).haltCause .check := by
  obtain ⟨hk, i', r', hs', hv⟩ := h
  obtain ⟨rfl, rfl⟩ : i = i' ∧ r = r' := by simpa using hs.symm.trans hs'
  rw [memberVerified, if_neg hk, hs]
  exact if_neg hv

theorem State.flagFailed_of_member (hs : s.supportOf l = some (i, r)) : s.flagFailed i = s.memberFlagged l i r := by
  obtain ⟨-, -, hr, hst⟩ := State.supportOf_eq_some.1 hs
  have slot : s.setCheckFlag.slot i = some r := hr
  have mark : r.markFailed = { r with state := .loaded l true } := by rw [FootRecord.markFailed, hst]
  rw [State.flagFailed, State.modRecord_of_slot slot, mark]
  rfl

theorem verifyMember_of_failing (h : MemberFails skip acc.1 l) :
    verifyMember skip acc l = (memberVerified skip acc.1 l, true) := by
  obtain ⟨hk, i, r, hs, hv⟩ := h
  have unsound : verifies r.content (acc.1.gen i) = false := Bool.eq_false_iff.2 fun h => hv (verifies_iff.1 h)
  rw [memberVerified_of_failing ⟨hk, i, r, hs, hv⟩ hs, ← State.flagFailed_of_member hs]
  simp only [verifyMember, hk, hs, unsound, if_false, Bool.false_eq_true]

theorem verifyMember_fst : (verifyMember skip acc l).1 = memberVerified skip acc.1 l := by
  by_cases h : MemberFails skip acc.1 l
  · rw [verifyMember_of_failing h]
  · rw [verifyMember_of_sound h, memberVerified_of_sound h]

/-- A verification that flags nothing finds nothing to flag and changes nothing. -/
theorem verifyMember_unflagged (h : (verifyMember skip acc l).2 = false) :
    ¬MemberFails skip acc.1 l ∧ verifyMember skip acc l = acc := by
  have sound : ¬MemberFails skip acc.1 l := fun hf => by
    rw [verifyMember_of_failing hf] at h
    cases h
  exact ⟨sound, verifyMember_of_sound sound⟩

theorem State.verifySupport_fst (s : State) (skip : Option Leg) : (s.verifySupport skip).1 = setVerified skip s := by
  have order : Leg.all = [.lf, .rf, .lh, .rh] := rfl
  simp only [State.verifySupport, order, List.foldl, setVerified, verifyMember_fst]

theorem State.verifySupport_of_failing (h : MemberFails skip s l) : (s.verifySupport skip).2 = true := by
  by_contra hf
  rw [Bool.not_eq_true] at hf
  have order : Leg.all = [.lf, .rf, .lh, .rh] := rfl
  simp only [State.verifySupport, order, List.foldl] at hf
  obtain ⟨rh, e₃⟩ := verifyMember_unflagged hf
  rw [e₃] at hf
  obtain ⟨lh, e₂⟩ := verifyMember_unflagged hf
  rw [e₂] at hf rh
  obtain ⟨rf, e₁⟩ := verifyMember_unflagged hf
  rw [e₁] at hf rh lh
  obtain ⟨lf, e₀⟩ := verifyMember_unflagged hf
  rw [e₀] at rh lh rf
  cases l with
  | lf => exact lf h
  | rf => exact rf h
  | lh => exact lh h
  | rh => exact rh h

/-! ### What a verification keeps -/

/-- Flagged records stand, legs that stand keep their stance records, and the rest is as after any cascade. -/
structure Verified (s t : State) : Prop where
  flagged : ∀ i r o, s.slot i = some r → r.state = .loaded o true → t.slot i = some r
  stance : ∀ l, (s.leg l).phase = .stance ∨ (s.leg l).phase = .unloading →
    ((t.leg l).phase = .stance ∨ (t.leg l).phase = .unloading) ∧ (t.leg l).stance = (s.leg l).stance
  calm : Calm .plain s t

namespace Verified

theorem refl (s : State) : Verified s s := ⟨fun _ _ _ h _ => h, fun _ h => ⟨h, rfl⟩, .refl _ _⟩

theorem trans (h : Verified s t) (h' : Verified t u) : Verified s u where
  flagged i r o hr hst := h'.flagged i r o (h.flagged i r o hr hst) hst
  stance l hp := by
    obtain ⟨hp', hs⟩ := h.stance l hp
    obtain ⟨hp'', hs'⟩ := h'.stance l hp'
    exact ⟨hp'', hs'.trans hs⟩
  calm := h.calm.trans h'.calm

theorem of_stances (h : KeepsStances s t) (hc : Calm .plain s t) : Verified s t :=
  ⟨fun i r o hr hst => (h.loaded i r o true hr hst).1, h.stance, hc⟩

end Verified

theorem State.memberFlagged_verified (hs : s.supportOf l = some (i, r)) : Verified s (s.memberFlagged l i r) := by
  obtain ⟨-, -, hr, hst⟩ := State.supportOf_eq_some.1 hs
  refine ⟨fun j r' o hr' hst' => ?_, fun _ h => ⟨h, rfl⟩, State.flagFailed_of_member hs ▸ State.flagFailed_calm i⟩
  have other : i ≠ j := by
    rintro rfl
    obtain rfl := Option.some.inj (hr.symm.trans hr')
    exact absurd (hst.symm.trans hst') (by simp)
  exact (State.slot_setSlot_ne _ _ other).trans hr'

theorem memberVerified_verified (skip : Option Leg) (s : State) (l : Leg) : Verified s (memberVerified skip s l) := by
  by_cases h : MemberFails skip s l
  · obtain ⟨hk, i, r, hs, hv⟩ := h
    rw [memberVerified_of_failing ⟨hk, i, r, hs, hv⟩ hs]
    exact (State.memberFlagged_verified hs).trans
      (.of_stances (keepsStances_frame.haltCause _ _) (State.haltCause_calm _))
  · rw [memberVerified_of_sound h]
    exact .refl s

/-- Another leg's member stands as a leg's own is verified. -/
theorem memberVerified_supportOf (hk : k ≠ l) (hs : s.supportOf l = some (i, r)) :
    (memberVerified skip s k).supportOf l = some (i, r) ∧ (memberVerified skip s k).gen i = s.gen i := by
  by_cases h : MemberFails skip s k
  · obtain ⟨hskip, j, r', hs', hv⟩ := h
    obtain ⟨hp, hst, hr, hl⟩ := State.supportOf_eq_some.1 hs
    obtain ⟨-, -, hr', hl'⟩ := State.supportOf_eq_some.1 hs'
    have other : j ≠ i := by
      rintro rfl
      obtain rfl := Option.some.inj (hr.symm.trans hr')
      exact hk (by simpa using hl'.symm.trans hl)
    have flagged : (s.memberFlagged k j r').supportOf l = some (i, r) :=
      State.supportOf_eq_some.2 ⟨hp, hst, (State.slot_setSlot_ne _ _ other).trans hr, hl⟩
    rw [memberVerified_of_failing ⟨hskip, j, r', hs', hv⟩ hs']
    exact (keepsStances_frame.haltCause _ _).supportOf flagged
  · rw [memberVerified_of_sound h]
    exact ⟨hs, rfl⟩

/-- The verification of a set around one leg's turn. -/
theorem setVerified_at (skip : Option Leg) (hs : s.supportOf l = some (i, r)) : ∃ u, u.supportOf l = some (i, r)
    ∧ u.gen i = s.gen i ∧ Verified (memberVerified skip u l) (setVerified skip s) := by
  have step {a : State} {k : Leg} (hk : k ≠ l) (ha : a.supportOf l = some (i, r) ∧ a.gen i = s.gen i) :
      (memberVerified skip a k).supportOf l = some (i, r) ∧ (memberVerified skip a k).gen i = s.gen i := by
    obtain ⟨h, g⟩ := memberVerified_supportOf (skip := skip) hk ha.1
    exact ⟨h, g.trans ha.2⟩
  have next (a : State) (k : Leg) := memberVerified_verified skip a k
  have start : s.supportOf l = some (i, r) ∧ s.gen i = s.gen i := ⟨hs, rfl⟩
  unfold setVerified
  cases l with
  | lf => exact ⟨s, hs, rfl, ((next _ .rf).trans (next _ .lh)).trans (next _ .rh)⟩
  | rf =>
    have before := step (k := .lf) (by decide) start
    exact ⟨_, before.1, before.2, (next _ .lh).trans (next _ .rh)⟩
  | lh =>
    have before := step (k := .rf) (by decide) (step (k := .lf) (by decide) start)
    exact ⟨_, before.1, before.2, next _ .rh⟩
  | rh =>
    have before := step (k := .lh) (by decide) (step (k := .rf) (by decide) (step (k := .lf) (by decide) start))
    exact ⟨_, before.1, before.2, .refl _⟩

theorem setVerified_verified (skip : Option Leg) (s : State) : Verified s (setVerified skip s) :=
  (((memberVerified_verified skip s .lf).trans (memberVerified_verified ..)).trans (memberVerified_verified ..)).trans
    (memberVerified_verified ..)

/-! ### A member that fails -/

theorem State.haltCause_check_halted (s : State) : (s.haltCause .check).seq.gait = .halted := by
  by_cases h : s.seq.gait = .halted
  · rw [State.haltCause_of_halted _ h]
    exact h
  · exact (State.haltCause_haltedBy h rfl).1

/-- A member that fails is flagged, and the gait is HALTED (R138). -/
theorem setVerified_of_failing (h : MemberFails skip s l) (hs : s.supportOf l = some (i, r)) :
    (setVerified skip s).seq.gait = .halted ∧ (setVerified skip s).slot i = some { r with state := .loaded l true } := by
  obtain ⟨u, hu, hg, after⟩ := setVerified_at skip hs
  have fails : MemberFails skip u l := by
    obtain ⟨hk, i', r', hs', hv⟩ := h
    obtain ⟨rfl, rfl⟩ : i = i' ∧ r = r' := by simpa using hs.symm.trans hs'
    exact ⟨hk, i, r, hu, hg ▸ hv⟩
  rw [memberVerified_of_failing fails hu] at after
  refine ⟨(after.calm.seq.halted (State.haltCause_check_halted _)).1, after.flagged i _ l ?_ rfl⟩
  have flagged : (u.memberFlagged l i r).slot i = some { r with state := .loaded l true } := State.slot_setSlot_self _ _ _
  exact ((keepsStances_frame.haltCause _ .check).loaded i _ l true flagged rfl).1

/-- A gait that is not HALTED, or is so for a check failure. -/
def State.HaltsByCheck (s : State) : Prop := s.seq.gait ≠ .halted ∨ s.HaltedBy .check

theorem memberVerified_haltsByCheck (h : s.HaltsByCheck) : (memberVerified skip s l).HaltsByCheck := by
  by_cases hf : MemberFails skip s l
  · obtain ⟨hk, i, r, hs, hv⟩ := hf
    rw [memberVerified_of_failing ⟨hk, i, r, hs, hv⟩ hs]
    refine .inr ?_
    by_cases hg : s.seq.gait = .halted
    · have halted : (s.memberFlagged l i r).HaltedBy .check := h.resolve_left (not_not.2 hg)
      rwa [State.haltCause_of_halted _ halted.1]
    · exact State.haltCause_haltedBy (s := s.memberFlagged l i r) hg rfl
  · rwa [memberVerified_of_sound hf]

/-- The halt of a set with a failing member has cause CHECK wherever the gait was not HALTED already (R138). -/
theorem setVerified_haltedBy (hg : s.seq.gait ≠ .halted) (h : MemberFails skip s l) :
    (setVerified skip s).HaltedBy .check := by
  obtain ⟨hk, i, r, hs, hv⟩ := h
  have halted := (setVerified_of_failing ⟨hk, i, r, hs, hv⟩ hs).1
  have checked : (setVerified skip s).HaltsByCheck := memberVerified_haltsByCheck (memberVerified_haltsByCheck
    (memberVerified_haltsByCheck (memberVerified_haltsByCheck (.inl hg))))
  exact checked.resolve_left (not_not.2 halted)

/-- A member that fails leaves the set. -/
theorem setVerified_supportOf (h : MemberFails skip s l) : (setVerified skip s).supportOf l = none := by
  obtain ⟨hk, i, r, hs, hv⟩ := h
  have flagged := (setVerified_of_failing ⟨hk, i, r, hs, hv⟩ hs).2
  obtain ⟨hp, ⟨q, hq, hqi⟩, -, -⟩ := State.supportOf_eq_some.1 hs
  obtain ⟨-, same⟩ := (setVerified_verified skip s).stance l hp
  refine Option.eq_none_iff_forall_ne_some.2 fun ⟨j, r'⟩ hm => ?_
  obtain ⟨-, ⟨q', hq', hqj⟩, hr', hst'⟩ := State.supportOf_eq_some.1 hm
  obtain rfl : q = q' := Option.some.inj (hq.symm.trans (same.symm.trans hq'))
  obtain rfl : i = j := hqi.symm.trans hqj
  obtain rfl := Option.some.inj (flagged.symm.trans hr')
  exact absurd hst' (by simp)

theorem State.recordCurrent_slot (s : State) (i : RecordIndex) : s.recordCurrent.slot i = s.slot i := rfl

theorem State.testTip_of_halted (h : s.seq.gait = .halted) : s.testTip = s := State.testTip_of_not fun ht => ht.1.2 h

/-- In HALTED the tip condition is not tested. -/
theorem State.computeCurrent_of_halted (hb : s.rebasing = false) (hv : (s.verifySupport none).1 = u)
    (hh : u.seq.gait = .halted) :
    s.computeCurrent = u.recordCurrent.deliver false .currentMargin .lf (u.marginWithout none).value.toInt := by
  have tested : u.recordCurrent.testTip = u.recordCurrent := State.testTip_of_halted hh
  unfold State.computeCurrent
  rw [hb, hv]
  dsimp only
  rw [tested]
  rfl

/-- A delivery leaves HALTED and its reason (R127). -/
theorem State.deliver_halted (e : Bool) (src : Source) (l : Leg) (v : Int) (h : s.seq.gait = .halted) :
    (s.deliver e src l v).seq.gait = .halted ∧ (s.deliver e src l v).seq.haltReason = s.seq.haltReason :=
  (State.deliver_calm (k := ⟨false, true, false⟩) e src l v fun _ => rfl).seq.halted h

theorem State.computeCurrent_halted (h : s.seq.gait = .halted) :
    s.computeCurrent.seq.gait = .halted ∧ s.computeCurrent.seq.haltReason = s.seq.haltReason :=
  (State.computeCurrent_calm (k := .plain)).seq.halted h

/-- A delivery leaves flagged records as they are. -/
theorem State.deliver_flagged (e : Bool) (src : Source) (l : Leg) (v : Int) (hr : s.slot i = some r)
    (hst : r.state = .loaded k true) : (s.deliver e src l v).slot i = some r :=
  ((keepsStances_frame.deliver s e src l v).loaded i r k true hr hst).1

/-- Where a member fails, the current margin follows the lift margin (R143). -/
theorem State.computeLift_of_failing (hf : MemberFails (some l) s k) (hv : (s.verifySupport (some l)).1 = u) :
    s.computeLift l = ((u.recordLift l).deliver true .liftMargin .lf
      (u.marginWithout (some l)).value.toInt).computeCurrent := by
  have flag := State.verifySupport_of_failing hf
  simp only [State.computeLift, hv, flag, if_true]
  rfl

/-! ### Two legs out of the set -/

theorem length_filterMap_le {α β : Type} {f : α → Option β} {p : α → Bool} (as : List α)
    (hf : ∀ a, p a = false → f a = none) : (as.filterMap f).length ≤ (as.filter p).length := by
  induction as with
  | nil => exact le_refl _
  | cons a as ih =>
    cases hp : p a with
    | false =>
      rw [List.filterMap_cons_none (hf a hp), List.filter_cons_of_neg (by simp [hp])]
      exact ih
    | true =>
      rw [List.filter_cons_of_pos hp]
      cases hfa : f a with
      | none =>
        rw [List.filterMap_cons_none hfa]
        exact ih.trans (Nat.le_succ _)
      | some b =>
        rw [List.filterMap_cons_some hfa]
        exact Nat.succ_le_succ ih

/-- With one leg left out and another's member gone no margin can be formed (R139, R144). -/
theorem State.marginWithout_degenerate (hk : k ≠ l) (h : s.supportOf k = none) :
    s.marginWithout (some l) = .degenerate := by
  refine marginOf_degenerate (.inr ?_)
  have two : (Leg.all.filter fun m => m != l && m != k).length < 3 := by
    revert hk
    cases l <;> cases k <;> decide
  refine lt_of_le_of_lt (length_filterMap_le (p := fun m => m != l && m != k) _ fun m hm => ?_) two
  rcases Bool.and_eq_false_iff.1 hm with hm | hm
  · obtain rfl : m = l := by simpa using hm
    exact if_pos rfl
  · obtain rfl : m = k := by simpa using hm
    rw [h, Option.map_none, ite_self]

end Sys2Proof.Machine
end

section
namespace Sys2Proof.Proofs

open Machine Claims

theorem supportSetMakesTheMargin : SupportSetMakesTheMargin := fun _ _ => ⟨fun _ _ _ => State.supportOf_eq_some, rfl⟩

theorem currentMarginVerifiesItsSet : CurrentMarginVerifiesItsSet := by
  intro s hb
  dsimp only
  refine ⟨fun ⟨l, hf⟩ => ?_, fun sound => ?_⟩
  · have halted : (setVerified none s).seq.gait = .halted := by
      obtain ⟨hk, i, r, hs, hv⟩ := hf
      exact (setVerified_of_failing ⟨hk, i, r, hs, hv⟩ hs).1
    have recorded : (setVerified none s).recordCurrent.seq.gait = .halted := halted
    rw [State.computeCurrent_of_halted hb (State.verifySupport_fst s none) halted]
    have served := State.deliver_halted false .currentMargin .lf ((setVerified none s).marginWithout none).value.toInt
      recorded
    refine ⟨rfl, served.1, fun hg => served.2.trans (setVerified_haltedBy hg hf).2, fun k i r hk hs => ?_⟩
    · have flagged : (setVerified none s).recordCurrent.slot i = some { r with state := .loaded k true } :=
        (State.recordCurrent_slot _ i).trans (setVerified_of_failing hk hs).2
      exact State.deliver_flagged _ _ _ _ flagged rfl
  · have fixed (l : Leg) : memberVerified none s l = s := memberVerified_of_sound (sound l)
    simp only [setVerified, fixed]

theorem liftMarginVerifiesItsSet : LiftMarginVerifiesItsSet := by
  intro s l
  dsimp only
  refine ⟨fun sound => ?_, fun ⟨k, hf⟩ => ?_⟩
  · have fixed (m : Leg) : memberVerified (some l) s m = s := memberVerified_of_sound (sound m)
    have same : setVerified (some l) s = s := by simp only [setVerified, fixed]
    rw [same]
    refine ⟨rfl, ?_⟩
    rw [State.computeLift, State.verifySupport_of_sound sound]
    rfl
  · have hk : k ≠ l := fun h => hf.1 (congrArg some h.symm)
    have degenerate := State.marginWithout_degenerate hk (setVerified_supportOf hf)
    have halted : ((setVerified (some l) s).recordLift l).seq.gait = .halted := by
      obtain ⟨hm, i, r, hs, hv⟩ := hf
      exact (setVerified_of_failing ⟨hm, i, r, hs, hv⟩ hs).1
    have served := State.deliver_halted true .liftMargin .lf ((setVerified (some l) s).marginWithout (some l)).value.toInt
      halted
    have computed := State.computeCurrent_halted served.1
    have kept := keepsLift_marginFrame.trans
      (keepsLift_marginFrame.deliver ((setVerified (some l) s).recordLift l) true .liftMargin .lf
        ((setVerified (some l) s).marginWithout (some l)).value.toInt)
      (keepsLift_marginFrame.computeCurrent _)
    rw [State.computeLift_of_failing hf (State.verifySupport_fst s (some l))]
    refine ⟨rfl, degenerate, kept.1.trans degenerate, kept.2, computed.1, fun hg => ?_⟩
    exact (computed.2.trans served.2).trans (setVerified_haltedBy hg hf).2

/-- Settles O60: the support set, and its verification by the current margin and by the lift margin. -/
theorem marginsVerifyTheirSupport : Obligations.MarginsVerifyTheirSupport :=
  ⟨supportSetMakesTheMargin, currentMarginVerifiesItsSet, liftMarginVerifiesItsSet⟩

end Sys2Proof.Proofs
end

section
/-! SUPPORT. A leg's loss in its two parts, the records let go and the units told, and a DOWN declaration by the slip condition
(R8, R12, R13, R60, R76, R103, R109). -/

namespace Sys2Proof.Machine

open Claims

variable {s t u : State} {l m : Leg} {i j : RecordIndex} {h : Handle} {r : FootRecord} {reason : LossReason}

/-! ### A gait that is not OFF -/

/-- No cascade switches to OFF (R119, R128). -/
def KeepsOn (s t : State) : Prop := t.seq.gait = .off → s.seq.gait = .off

theorem KeepsOn.of_seq (h : t.seq = s.seq) : KeepsOn s t := fun ht => h ▸ ht

theorem State.modRecord_seq (f : FootRecord → FootRecord) : (s.modRecord i f).seq = s.seq := by
  unfold State.modRecord
  split <;> rfl

theorem State.handBackTarget_seq : (s.handBackTarget l h).seq = s.seq := by
  unfold State.handBackTarget
  dsimp only
  split
  · exact State.modRecord_seq _
  · exact (State.modRecord_seq _).trans (State.modRecord_seq _)

theorem State.withdrawLift_seq : (s.withdrawLift l).seq = s.seq := by
  unfold State.withdrawLift
  repeat' split
  · exact (State.sendOrder_seq ..).trans State.handBackTarget_seq
  · exact State.sendOrder_seq ..
  · rfl

theorem State.seek_seq : (s.seek l).seq = s.seq :=
  State.seek_cases (P := fun t => t.seq = s.seq) rfl (fun _ _ _ _ _ _ => rfl) fun _ _ _ _ _ _ _ _ => State.sendOrder_seq ..

theorem keepsOn_gaitFrame : GaitFrame KeepsOn where
  refl _ := id
  trans h h' := h ∘ h'
  setSeq _ _ h := h
  setTrips _ _ := id
  told _ _ := id
  pend _ _ _ _ := id
  sendOrder _ _ _ _ _ _ := .of_seq (State.sendOrder_seq ..)
  withdrawLift _ _ := .of_seq State.withdrawLift_seq
  seek _ _ := .of_seq State.seek_seq
  flagFailed s _ := .of_seq (State.modRecord_seq (s := s.setCheckFlag) _)
  recordCurrent _ := id
  recordLift _ _ := id
  failReserved s l i := .of_seq (State.freeFailed_seq (s := s.dropFromQueue l i))

/-! ### The records let go -/

theorem State.loseStance_cases {P : State → Prop} (same : P s)
    (freed : ∀ r o, s.slot j = some r → r.state = .loaded o true → P (s.freeRecord j .check))
    (doubted : ∀ r o, s.slot j = some r → r.state = .loaded o false →
      P (s.setSlot j (some { r with state := .suspect, tag := s.seq.stride }))) : P (s.loseStance j) := by
  unfold State.loseStance
  cases hr : s.slot j with
  | none => exact same
  | some r =>
    dsimp only
    cases hst : r.state with
    | candidate | reserved | target | suspect => exact same
    | loaded o f =>
      cases f with
      | true => exact freed r o hr hst
      | false =>
        have doubt : r.suspectLoaded s.seq.stride = { r with state := .suspect, tag := s.seq.stride } := by
          rw [FootRecord.suspectLoaded, hst]
          rfl
        dsimp only
        rw [doubt]
        exact doubted r o hr hst

theorem State.freeRecord_of_slot (hr : s.slot i = some r) : s.freeRecord i .check =
    ((s.setSlot i none).setGen i (s.gen i + 1)).pend nodeRecord (.record ⟨i, s.gen i⟩ .check) := by
  rw [State.freeRecord, hr]
  rfl

theorem State.stanceLost_cases {P : State → Prop} (same : P s)
    (freed : ∀ h r o, (s.leg l).stance = some h → s.slot h.index = some r → r.state = .loaded o true →
      P (((s.setSlot h.index none).setGen h.index (s.gen h.index + 1)).pend nodeRecord
        (.record ⟨h.index, s.gen h.index⟩ .check)))
    (doubted : ∀ h r o, (s.leg l).stance = some h → s.slot h.index = some r → r.state = .loaded o false →
      P (s.setSlot h.index (some { r with state := .suspect, tag := s.seq.stride }))) : P (s.stanceLost l) := by
  unfold State.stanceLost
  cases hs : (s.leg l).stance with
  | none => exact same
  | some h =>
    refine State.loseStance_cases same (fun r o hr hst => ?_) fun r o hr hst => doubted h r o hs hr hst
    rw [State.freeRecord_of_slot hr]
    exact freed h r o hs hr hst

theorem State.stanceLost_seq : (s.stanceLost l).seq = s.seq :=
  State.stanceLost_cases (P := fun t => t.seq = s.seq) rfl (fun _ _ _ _ _ _ => rfl) fun _ _ _ _ _ _ => rfl

theorem State.stanceLost_queues : (s.stanceLost l).queues = s.queues :=
  State.stanceLost_cases (P := fun t => t.queues = s.queues) rfl (fun _ _ _ _ _ _ => rfl) fun _ _ _ _ _ _ => rfl

theorem State.stanceLost_node {n : NodeNumber} (hn : n ≠ nodeRecord) : (s.stanceLost l).node n = s.node n :=
  State.stanceLost_cases (P := fun t => t.node n = s.node n) rfl (fun _ _ _ _ _ _ => State.node_pend_ne _ _ hn.symm)
    fun _ _ _ _ _ _ => rfl

/-- A record that no leg stands on is no stance record. -/
theorem State.slot_stanceLost (hr : s.slot i = some r) (hst : ∀ o f, r.state ≠ .loaded o f) :
    (s.stanceLost l).slot i = some r := by
  have other {k : Handle} {r' : FootRecord} {o : Leg} {f : Bool} (hr' : s.slot k.index = some r')
      (hst' : r'.state = .loaded o f) : k.index ≠ i := by
    rintro rfl
    obtain rfl := Option.some.inj (hr.symm.trans hr')
    exact hst o f hst'
  exact State.stanceLost_cases (P := fun t => t.slot i = some r) hr
    (fun _ _ _ _ hr' hst' => (State.slot_setSlot_ne s none (other hr' hst')).trans hr)
    fun _ _ _ _ hr' hst' => (State.slot_setSlot_ne s _ (other hr' hst')).trans hr

theorem State.slot_stanceLost_sound {o : Leg} (hs : (s.leg l).stance = some h) (hr : s.slot h.index = some r)
    (hst : r.state = .loaded o false) :
    (s.stanceLost l).slot h.index = some { r with state := .suspect, tag := s.seq.stride } := by
  have doubt : r.suspectLoaded s.seq.stride = { r with state := .suspect, tag := s.seq.stride } := by
    rw [FootRecord.suspectLoaded, hst]
    rfl
  simp only [State.stanceLost, hs, State.loseStance, hr, hst]
  rw [doubt]
  exact State.slot_setSlot_self _ _ _

theorem State.slot_stanceLost_flagged {o : Leg} (hs : (s.leg l).stance = some h) (hr : s.slot h.index = some r)
    (hst : r.state = .loaded o true) :
    (s.stanceLost l).slot h.index = none ∧ (s.stanceLost l).gen h.index = s.gen h.index + 1 := by
  simp only [State.stanceLost, hs, State.loseStance, hr, hst, State.freeRecord_of_slot hr]
  exact ⟨State.slot_setSlot_self _ _ _, (State.gen_setGen _ _ _ _).trans (if_pos rfl)⟩

theorem State.targetLost_eq (s t : State) (l : Leg) : s.targetLost t l = t ∨
    ∃ k, (s.leg l).target = some k ∧ s.targetLost t l = t.modRecord k.index (FootRecord.releaseTarget s.seq.stride l) := by
  unfold State.targetLost
  cases ht : (s.leg l).target with
  | none => exact .inl rfl
  | some k => exact .inr ⟨k, rfl, rfl⟩

theorem State.slot_targetLost (hr : t.slot i = some r) (hst : r.state ≠ .target l) :
    (s.targetLost t l).slot i = some r := by
  rcases State.targetLost_eq s t l with he | ⟨k, -, he⟩
  · rwa [he]
  · rw [he]
    exact State.slot_modRecord_of_fixed hr (if_neg hst)

theorem State.slot_targetLost_none (hr : t.slot i = none) : (s.targetLost t l).slot i = none := by
  rcases State.targetLost_eq s t l with he | ⟨k, -, he⟩
  · rwa [he]
  · rw [he, State.slot_modRecord, hr, Option.map_none, ite_self]

theorem State.slot_targetLost_target (ht : (s.leg l).target = some h) (hr : t.slot h.index = some r)
    (hst : r.state = .target l) :
    (s.targetLost t l).slot h.index = some { r with state := .candidate, tag := s.seq.stride } := by
  have release : r.releaseTarget s.seq.stride l = { r with state := .candidate, tag := s.seq.stride } := if_pos hst
  simp only [State.targetLost, ht]
  rw [State.slot_modRecord, if_pos rfl, hr, Option.map_some, release]

theorem State.gen_targetLost : (s.targetLost t l).gen i = t.gen i := by
  rcases State.targetLost_eq s t l with he | ⟨k, -, he⟩
  · rw [he]
  · rw [he, State.gen_modRecord]

theorem State.targetLost_seq : (s.targetLost t l).seq = t.seq := by
  rcases State.targetLost_eq s t l with he | ⟨k, -, he⟩
  · rw [he]
  · rw [he, State.modRecord_seq]

theorem State.targetLost_attn : (s.targetLost t l).attn = t.attn := by
  rcases State.targetLost_eq s t l with he | ⟨k, -, he⟩
  · rw [he]
  · rw [he, State.modRecord_attn]

theorem State.targetLost_queues : (s.targetLost t l).queues = t.queues := by
  rcases State.targetLost_eq s t l with he | ⟨k, -, he⟩
  · rw [he]
  · rw [he, State.modRecord_queues]

/-- A queue's entries returned to CANDIDATE, one after the other (R60). -/
def State.unreserveAll (l : Leg) (hs : List Handle) (s : State) : State :=
  hs.foldl (fun s h => s.modRecord h.index (FootRecord.unreserve s.seq.stride l)) s

theorem State.emptyQueue_eq (s : State) (l : Leg) : s.emptyQueue l = (s.unreserveAll l (s.queue l)).setQueue l [] := rfl

section
variable {hs : List Handle}

theorem State.unreserveAll_seq : (s.unreserveAll l hs).seq = s.seq := by
  induction hs generalizing s with
  | nil => rfl
  | cons k hs ih => exact (ih (s := s.modRecord k.index _)).trans (State.modRecord_seq _)

theorem State.unreserveAll_attn : (s.unreserveAll l hs).attn = s.attn := by
  induction hs generalizing s with
  | nil => rfl
  | cons k hs ih => exact (ih (s := s.modRecord k.index _)).trans (State.modRecord_attn _)

theorem State.gen_unreserveAll : (s.unreserveAll l hs).gen i = s.gen i := by
  induction hs generalizing s with
  | nil => rfl
  | cons k hs ih => exact (ih (s := s.modRecord k.index _)).trans (State.gen_modRecord _ _ _ _)

theorem State.slot_unreserveAll (hr : s.slot i = some r) (hst : r.state ≠ .reserved l) :
    (s.unreserveAll l hs).slot i = some r := by
  induction hs generalizing s with
  | nil => exact hr
  | cons k hs ih =>
    exact ih (s := s.modRecord k.index _) (State.slot_modRecord_of_fixed hr (FootRecord.unreserve_of_ne hst))

theorem State.slot_unreserveAll_none (hr : s.slot i = none) : (s.unreserveAll l hs).slot i = none := by
  induction hs generalizing s with
  | nil => exact hr
  | cons k hs ih =>
    refine ih (s := s.modRecord k.index _) ?_
    rw [State.slot_modRecord, hr, Option.map_none, ite_self]

/-- Each entry's record becomes CANDIDATE. -/
theorem State.slot_unreserveAll_mem (hh : h ∈ hs) (hr : s.slot h.index = some r) (hst : r.state = .reserved l) :
    (s.unreserveAll l hs).slot h.index = some { r with state := .candidate, tag := s.seq.stride } := by
  have freed (u : State) : r.unreserve u.seq.stride l = { r with state := .candidate, tag := u.seq.stride } := if_pos hst
  induction hs generalizing s with
  | nil => exact absurd hh List.not_mem_nil
  | cons k hs ih =>
    have step := State.slot_modRecord s k.index h.index (FootRecord.unreserve s.seq.stride l)
    by_cases e : k.index = h.index
    · rw [if_pos e, hr, Option.map_some, freed] at step
      exact State.slot_unreserveAll (s := s.modRecord k.index _) step (by simp)
    · have mem : h ∈ hs := (List.mem_cons.1 hh).resolve_left fun he => e (congrArg Handle.index he.symm)
      rw [if_neg e, hr] at step
      have rest := ih mem step
      rwa [State.modRecord_seq] at rest

end

/-- The leg and its records after a loss, before the units are told (R109 steps 1 to 5). -/
def State.lost (s : State) (l : Leg) : State := (s.loseRecords l).enterLost l

theorem State.lost_leg : (s.lost l).leg l =
    { phase := .lost, stance := none, target := none, bounce := 0, slipLatched := false, stepFlag := false,
      swingTimer := .stopped, descentTimer := .stopped, settleTimer := .stopped } := State.leg_setLeg_self _ _ _

theorem State.lost_queue : (s.lost l).queue l = [] := by
  have emptied : (s.loseRecords l).queue l = [] := by
    rw [State.loseRecords_eq, State.emptyQueue_eq]
    exact PerLeg.get_set_self _ _ _
  exact emptied

theorem State.lost_seq : (s.lost l).seq = s.seq := by
  have records : (s.loseRecords l).seq = s.seq := by
    rw [State.loseRecords_eq, State.emptyQueue_eq]
    exact State.unreserveAll_seq.trans (State.targetLost_seq.trans State.stanceLost_seq)
  exact records

theorem State.lost_node {n : NodeNumber} (hn : n ≠ nodeRecord) : (s.lost l).node n = s.node n := by
  have attn : (s.lost l).attn = (s.stanceLost l).attn := by
    have records : (s.loseRecords l).attn = (s.stanceLost l).attn := by
      rw [State.loseRecords_eq, State.emptyQueue_eq]
      exact State.unreserveAll_attn.trans State.targetLost_attn
    exact records
  exact (congrArg (fun a : Attention => a.nodes[n]) attn).trans (State.stanceLost_node hn)

/-- What the last two parts of the loss make of the records. -/
theorem State.lost_slot : (s.lost l).slot i = ((s.targetLost (s.stanceLost l) l).unreserveAll l (s.queue l)).slot i := by
  have queue : (s.targetLost (s.stanceLost l) l).queue l = s.queue l :=
    congrArg (PerLeg.get · l) (State.targetLost_queues.trans State.stanceLost_queues)
  have records : (s.loseRecords l).slot i =
      ((s.targetLost (s.stanceLost l) l).unreserveAll l (s.queue l)).slot i := by
    rw [State.loseRecords_eq, State.emptyQueue_eq, queue]
    rfl
  exact records

theorem State.lost_gen : (s.lost l).gen i = (s.stanceLost l).gen i := by
  have records : (s.loseRecords l).gen i = (s.stanceLost l).gen i := by
    rw [State.loseRecords_eq, State.emptyQueue_eq]
    exact State.gen_unreserveAll.trans State.gen_targetLost
  exact records

theorem State.lost_slot_target (ht : (s.leg l).target = some h) (hr : s.slot h.index = some r) (hst : r.state = .target l) :
    (s.lost l).slot h.index = some { r with state := .candidate, tag := s.seq.stride } := by
  rw [State.lost_slot]
  exact State.slot_unreserveAll
    (State.slot_targetLost_target ht (State.slot_stanceLost hr (by simp [hst])) hst) (by simp)

theorem State.lost_slot_queued (hh : h ∈ s.queue l) (hr : s.slot h.index = some r) (hst : r.state = .reserved l) :
    (s.lost l).slot h.index = some { r with state := .candidate, tag := s.seq.stride } := by
  have released : (s.targetLost (s.stanceLost l) l).slot h.index = some r :=
    State.slot_targetLost (State.slot_stanceLost hr (by simp [hst])) (by simp [hst])
  have freed := State.slot_unreserveAll_mem hh released hst
  rwa [State.targetLost_seq, State.stanceLost_seq, ← State.lost_slot] at freed

theorem State.lost_slot_sound (hs : (s.leg l).stance = some h) (hr : s.slot h.index = some r)
    (hst : r.state = .loaded l false) :
    (s.lost l).slot h.index = some { r with state := .suspect, tag := s.seq.stride } := by
  rw [State.lost_slot]
  exact State.slot_unreserveAll (State.slot_targetLost (State.slot_stanceLost_sound hs hr hst) (by simp)) (by simp)

theorem State.lost_slot_flagged (hs : (s.leg l).stance = some h) (hr : s.slot h.index = some r)
    (hst : r.state = .loaded l true) : (s.lost l).slot h.index = none ∧ (s.lost l).gen h.index = s.gen h.index + 1 := by
  obtain ⟨slot, gen⟩ := State.slot_stanceLost_flagged hs hr hst
  rw [State.lost_slot, State.lost_gen]
  exact ⟨State.slot_unreserveAll_none (State.slot_targetLost_none slot), gen⟩

/-! ### The units told -/

/-- The loss told to the monitor and to the sequencer, the slip re-arm with it (R109 steps 1 to 4). -/
def State.lossRearmed (s : State) (l : Leg) : State :=
  let watched := (s.lost l).supportChanged (s.supports l)
  let reported := if (s.queue l).isEmpty then watched else watched.reportToSequencer l
  reported.slipRearmTold

/-- And to the LEG node (R109 step 6). -/
def State.lossNoted (s : State) (l : Leg) : State := (s.lossRearmed l).pend nodeLeg (.leg l .lost (s.port l).loss)

theorem State.legLost_eq (hl : (s.leg l).phase.linked = true) : s.legLost l =
    (((s.lossNoted l).haltCause .legLost).deliverSlipCount l 0).recountIf
      ((s.leg l).target.isSome || !(s.queue l).isEmpty) := if_pos hl

theorem State.legLost_unlinked (hl : (s.leg l).phase = .unseen ∨ (s.leg l).phase = .lost) : s.legLost l = s :=
  if_neg (by rcases hl with hl | hl <;> simp [hl, Phase.linked])

theorem State.slipRearmTold_of_latched (h : ∃ m, (t.leg m).slipLatched = true) : t.slipRearmTold = t := by
  obtain ⟨m, hm⟩ := h
  exact if_pos (List.any_eq_true.2 ⟨m, Leg.mem_all m, hm⟩)

theorem State.slipRearmTold_of_clear (h : ∀ m, (t.leg m).slipLatched = false) :
    t.slipRearmTold = t.removeReason .slip := by
  refine if_neg ?_
  simp only [List.any_eq_true, not_exists, not_and, Bool.not_eq_true]
  exact fun m _ => h m

/-- A loss of a target or of queue entries is recounted (R150). -/
theorem State.recountIf_held {target : Option Handle} {queue : List Handle} :
    t.recountIf (target.isSome || !queue.isEmpty) = if target = none ∧ queue = [] then t else t.recount := by
  unfold State.recountIf
  cases target with
  | some k => rfl
  | none =>
    cases queue with
    | nil => rfl
    | cons k rest => rfl

theorem State.lossRearmed_calm : Calm .plain (s.lost l) (s.lossRearmed l) := by
  have watched : Calm .plain (s.lost l) ((s.lost l).supportChanged (s.supports l)) := State.supportChanged_calm _
  exact (Calm.ite (fun _ => watched) fun _ => watched.trans (State.reportToSequencer_calm l)).trans
    State.slipRearmTold_calm

theorem State.legLost_calm_lost (hl : (s.leg l).phase.linked = true) : Calm .plain (s.lossNoted l) (s.legLost l) := by
  rw [State.legLost_eq hl]
  exact ((State.haltCause_calm _).trans (State.deliverSlipCount_calm _ _)).trans (State.recountIf_calm _)

theorem State.lossNoted_calm : Calm .plain (s.lost l) (s.lossNoted l) :=
  State.lossRearmed_calm.trans (State.pend_calm _ _)

theorem State.lossNoted_tame : Tame (s.lost l) (s.lossNoted l) := by
  have watched : Tame (s.lost l) ((s.lost l).supportChanged (s.supports l)) :=
    .ite (fun _ => State.computeCurrent_tame) fun _ => .refl _
  have reported : Tame (s.lost l) (s.lossRearmed l) :=
    (Tame.ite (fun _ => watched) fun _ => watched.trans (State.reportToSequencer_tame l)).trans State.slipRearmTold_tame
  exact reported.trans (State.pend_tame _ _)

theorem State.legLost_tame_lost (hl : (s.leg l).phase.linked = true) : Tame (s.lossNoted l) (s.legLost l) := by
  rw [State.legLost_eq hl]
  exact ((State.haltCause_tame _).trans (State.deliver_tame ..)).trans (State.recountIf_tame _)

theorem GaitFrame.lossRearmed {R : State → State → Prop} (F : GaitFrame R) (s : State) (l : Leg) :
    R (s.lost l) (s.lossRearmed l) := by
  have watched : R (s.lost l) ((s.lost l).supportChanged (s.supports l)) := by
    unfold State.supportChanged
    split
    · exact F.computeCurrent _
    · exact F.refl _
  have told (t : State) : R t t.slipRearmTold := by
    unfold State.slipRearmTold
    split
    · exact F.refl _
    · exact F.removeReason _ _
  unfold State.lossRearmed
  dsimp only
  split
  · exact F.trans watched (told _)
  · exact F.trans (F.trans watched (F.reportToSequencer _ _)) (told _)

theorem Frame.legLost {R : State → State → Prop} (F : Frame R) (hl : (s.leg l).phase.linked = true) :
    R (s.lossNoted l) (s.legLost l) := by
  rw [State.legLost_eq hl]
  exact F.trans (F.trans (F.haltCause _ _) (F.deliver ..)) (F.recountIf _ _)

/-! ### What the loss leaves -/

theorem State.legLost_node (hl : (s.leg l).phase.linked = true) : ((s.legLost l).node nodeLeg).pending =
    some ((s.node nodeLeg).pending.getD (.leg l .lost (s.port l).loss)) := by
  have before : (s.lossRearmed l).node nodeLeg = s.node nodeLeg :=
    (keepsLegNode_gaitFrame.lossRearmed s l).trans (State.lost_node (by decide))
  have after : (s.legLost l).node nodeLeg = (s.lossNoted l).node nodeLeg := keepsLegNode_gaitFrame.toFrame.legLost hl
  have noted : (s.lossNoted l).node nodeLeg = ((s.lossRearmed l).node nodeLeg).pend (.leg l .lost (s.port l).loss) :=
    State.node_setNode_self _ _ _
  rw [after, noted, before, Node.pend_eq]

theorem State.lossNoted_on (hg : s.seq.gait ≠ .off) : (s.lossNoted l).seq.gait ≠ .off := by
  have kept : KeepsOn (s.lost l) (s.lossNoted l) := keepsOn_gaitFrame.lossRearmed s l
  intro h
  have off := kept h
  rw [State.lost_seq] at off
  exact hg off

theorem HaltCause.legLost_applies {g : Gait} (h : g ≠ .off) : HaltCause.legLost.applies g = true := by
  cases g with
  | off => exact absurd rfl h
  | standing | walking | holding | stopping | halted => rfl

theorem State.legLost_haltedBy (hl : (s.leg l).phase.linked = true) (ho : (s.lossNoted l).seq.gait ≠ .off)
    (hh : (s.lossNoted l).seq.gait ≠ .halted) : (s.legLost l).HaltedBy .legLost := by
  have entered := State.haltCause_haltedBy hh (HaltCause.legLost_applies ho)
  rw [State.legLost_eq hl]
  exact ((State.deliverSlipCount_calm _ _).trans (State.recountIf_calm _)).haltedBy entered

theorem State.legLost_halted (hl : (s.leg l).phase.linked = true) (hg : s.seq.gait ≠ .off) :
    (s.legLost l).seq.gait = .halted := by
  by_cases hh : (s.lossNoted l).seq.gait = .halted
  · exact ((State.legLost_calm_lost hl).seq.halted hh).1
  · exact (State.legLost_haltedBy hl (State.lossNoted_on hg) hh).1

/-- A record that no leg holds stands as the units are told of the loss. -/
theorem State.legLost_slot (hl : (s.leg l).phase.linked = true) (hr : (s.lost l).slot i = some r) (hu : r.Unheld) :
    (s.legLost l).slot i = some r := by
  have calm := (State.lossNoted_calm (s := s)).trans (State.legLost_calm_lost hl)
  have slots : slotCalm ((s.lost l).slot i) ((s.legLost l).slot i) ((s.lost l).gen i) ((s.legLost l).gen i) :=
    calm.store.slots i
  rw [hr] at slots
  exact (slots.1 hu).1

theorem State.legLost_slot_none (hl : (s.leg l).phase.linked = true) (hr : (s.lost l).slot i = none) :
    (s.legLost l).slot i = none ∧ (s.legLost l).gen i = (s.lost l).gen i := by
  have calm := (State.lossNoted_calm (s := s)).trans (State.legLost_calm_lost hl)
  have slots : slotCalm ((s.lost l).slot i) ((s.legLost l).slot i) ((s.lost l).gen i) ((s.legLost l).gen i) :=
    calm.store.slots i
  rw [hr] at slots
  exact slots

/-! ### A DOWN declaration -/

theorem State.declareDown_free (hp : (s.port l).slipHeld = false) :
    s.declareDown l reason = (s.setPort l ((s.port l).down reason (s.paramNat 8))).legLost l := by
  have free : (s.setPort l ((s.port l).down reason (s.paramNat 8))).rearmSlip l =
      s.setPort l ((s.port l).down reason (s.paramNat 8)) := by
    rw [State.rearmSlip, State.port_setPort_self]
    exact if_neg (by simp [Port.down, hp])
  rw [State.declareDown, free]

theorem State.declareDown_held (hp : (s.port l).slipHeld = true) : s.declareDown l reason =
    ((s.setPort l { (s.port l).down reason (s.paramNat 8) with slipHeld := false, rearmTimer := .stopped }).slipRearmHanded
      l).legLost l := by
  have rearmed : (s.setPort l ((s.port l).down reason (s.paramNat 8))).rearmSlip l =
      (s.setPort l
        { (s.port l).down reason (s.paramNat 8) with slipHeld := false, rearmTimer := .stopped }).slipRearmHanded l := by
    rw [State.rearmSlip, State.port_setPort_self, State.setPort_setPort]
    exact if_pos hp
  rw [State.declareDown, rearmed]

/-- The port after RELINK: the joint fault latch clear and the link DOWN with reason RELINK (R76, R77). -/
def Port.relinked (p : Port) (window : Nat) : Port := ({ p with jointFault := false } : Port).down .relink window

theorem State.relink_free (hp : (s.port l).slipHeld = false) :
    (s.setPort l { s.port l with jointFault := false }).declareDown l .relink =
      (s.setPort l ((s.port l).relinked (s.paramNat 8))).legLost l := by
  rw [State.declareDown_free (s := s.setPort l { s.port l with jointFault := false })
    (by rw [State.port_setPort_self]; exact hp), State.port_setPort_self, State.setPort_setPort]
  rfl

theorem State.relink_held (hp : (s.port l).slipHeld = true) :
    (s.setPort l { s.port l with jointFault := false }).declareDown l .relink =
      ((s.setPort l { (s.port l).relinked (s.paramNat 8) with slipHeld := false, rearmTimer := .stopped }).slipRearmHanded
        l).legLost l := by
  rw [State.declareDown_held (s := s.setPort l { s.port l with jointFault := false })
    (by rw [State.port_setPort_self]; exact hp), State.port_setPort_self, State.setPort_setPort]
  rfl

theorem takeRelink_eq {leg : Word} (hl : LegWord leg l) : takeRelink leg .supervisor s =
    answer ((s.setPort l { s.port l with jointFault := false }).declareDown l .relink) .done := by
  rw [takeRelink, permitted_of_eq_true rfl, legOf_of_legWord hl]

end Sys2Proof.Machine
end

section
namespace Sys2Proof.Proofs

open Machine Claims

theorem relinkDeclaresDown : RelinkDeclaresDown := by
  intro h s leg ha
  refine ⟨fun hl => ?_, fun l hl => ?_⟩
  · refine frameEvent_answered ha rfl rfl (by simp) ?_
    rw [takeRelink, permitted_of_eq_true rfl, legOf_eq_none hl]
    rfl
  · dsimp only
    refine ⟨fun hp => ?_, fun hp => ?_⟩
    · refine frameEvent_answered ha rfl rfl (by simp) ?_
      exact (takeRelink_eq hl).trans (congrArg (answer · .done) (State.relink_free hp))
    · refine frameEvent_answered ha rfl rfl (by simp) ?_
      exact (takeRelink_eq hl).trans (congrArg (answer · .done) (State.relink_held hp))

theorem lossReleasesEverything : LossReleasesEverything := by
  intro s l
  refine ⟨State.legLost_unlinked, fun hl => ?_⟩
  have phase : ((s.lost l).leg l).phase = .lost := by rw [State.lost_leg]
  obtain ⟨leg, queue⟩ := ((State.lossNoted_tame (s := s)).trans (State.legLost_tame_lost hl)).legs l
    (by simp [phase]) (by simp [phase])
  refine ⟨leg.trans State.lost_leg, ?_, ?_, State.legLost_halted hl, fun h r ht hr hst => ?_, fun h r hh hr hst => ?_,
    fun h r hs hr hst => ?_, fun h r hs hr hst => ?_⟩
  · rw [State.lost_queue] at queue
    exact List.sublist_nil.1 queue
  · rw [State.legLost_node hl]
    exact Option.some_ne_none _
  · exact State.legLost_slot hl (State.lost_slot_target ht hr hst) (.inl rfl)
  · exact State.legLost_slot hl (State.lost_slot_queued hh hr hst) (.inl rfl)
  · exact State.legLost_slot hl (State.lost_slot_sound hs hr hst) (.inr rfl)
  · obtain ⟨slot, gen⟩ := State.lost_slot_flagged hs hr hst
    obtain ⟨slot', gen'⟩ := State.legLost_slot_none hl slot
    exact ⟨slot', gen'.trans gen⟩

theorem lossTellsTheUnits : LossTellsTheUnits := by
  intro s l hl detail lost watched reported
  have hwatched : watched = (s.lost l).supportChanged (s.supports l) := by
    cases hs : s.supportOf l with
    | none =>
      simp only [watched, State.supportChanged, State.supports, hs, Option.isSome_none, if_true, if_false,
        Bool.false_eq_true]
      rfl
    | some ir =>
      simp only [watched, State.supportChanged, State.supports, hs, Option.isSome_some, if_true, reduceCtorEq, if_false]
      rfl
  have hreported : reported.slipRearmTold = s.lossRearmed l := by
    simp only [reported, hwatched, State.lossRearmed, List.isEmpty_iff]
  refine ⟨s.lossRearmed l, fun latched => ?_, fun clear => ?_, ?_, State.legLost_node hl, fun ho hh => ?_, fun hh => ?_⟩
  · rw [← hreported, State.slipRearmTold_of_latched latched]
  · rw [← hreported, State.slipRearmTold_of_clear clear]
  · exact (State.legLost_eq hl).trans State.recountIf_held
  · exact (State.legLost_haltedBy hl ho hh).2
  · exact ((State.legLost_calm_lost hl).seq.halted hh).2

/-- Settles O30: RELINK, what a loss releases, and the order in which the units are told. -/
theorem relinkAndLoss : Obligations.RelinkAndLoss := ⟨relinkDeclaresDown, lossReleasesEverything, lossTellsTheUnits⟩

end Sys2Proof.Proofs
end

section
/-! SUPPORT. The entry to HALTED seen from one leg: what is done for the other legs spares it (R59, R94, R105, R119, R127). -/

namespace Sys2Proof.Machine

open Claims

variable {s t u : State} {l m : Leg} {i : RecordIndex} {h : Handle} {r : FootRecord} {c : HaltCause}

/-! ### Ports -/

theorem State.sendOrder_port_ne (k : OrderKind) (x y z : Word) (hm : m ≠ l) : (s.sendOrder m k x y z).port l = s.port l := by
  unfold State.sendOrder
  dsimp only
  split
  · exact (State.port_setPort _ _ _ _).trans (if_neg hm)
  · rfl

/-- An order on an UP link is the last and is pending, and the link stays UP (R68). -/
theorem State.sendOrder_port_self (k : OrderKind) (x y z : Word) (hu : (s.port l).linkUp = true) :
    ((s.sendOrder l k x y z).port l).linkUp = true ∧ ((s.sendOrder l k x y z).port l).lastKind = some k
      ∧ ∃ o, ((s.sendOrder l k x y z).port l).pending = some o ∧ o.kind = k := by
  have sent : (s.sendOrder l k x y z).port l =
      { s.port l with
        lastNumber := (s.port l).lastNumber + 1, lastKind := some k
        pending := some ⟨(s.port l).lastNumber + 1, k, x, y, z⟩, retries := 0, echoTimer := s.timerFor 10 } := by
    unfold State.sendOrder
    dsimp only
    rw [if_pos hu]
    exact PerLeg.get_set_self _ _ _
  rw [sent]
  exact ⟨hu, rfl, _, rfl, rfl⟩

theorem State.modRecord_ports (f : FootRecord → FootRecord) : (s.modRecord i f).ports = s.ports := by
  unfold State.modRecord
  split <;> rfl

theorem State.handBackTarget_ports : (s.handBackTarget l h).ports = s.ports := by
  unfold State.handBackTarget
  dsimp only
  split
  · exact State.modRecord_ports _
  · exact (State.modRecord_ports _).trans (State.modRecord_ports _)

theorem State.handBackTarget_port : (s.handBackTarget l h).port m = s.port m :=
  congrArg (PerLeg.get · m) State.handBackTarget_ports

/-! ### A leg spared -/

/-- A leg, its queue, its port and the records that it holds but its stance record stand, and so does the sequencer. -/
structure Spares (l : Leg) (s t : State) : Prop where
  leg : t.leg l = s.leg l
  queue : t.queue l = s.queue l
  port : t.port l = s.port l
  seq : t.seq = s.seq
  slots : ∀ i r, s.slot i = some r → r.state = .reserved l ∨ r.state = .target l ∨ r.state = .candidate →
    t.slot i = some r

namespace Spares

theorem refl (l : Leg) (s : State) : Spares l s s := ⟨rfl, rfl, rfl, rfl, fun _ _ h _ => h⟩

theorem trans (h : Spares l s t) (h' : Spares l t u) : Spares l s u :=
  ⟨h'.leg.trans h.leg, h'.queue.trans h.queue, h'.port.trans h.port, h'.seq.trans h.seq,
    fun i r hr hst => h'.slots i r (h.slots i r hr hst) hst⟩

theorem sendOrder (k : OrderKind) (x y z : Word) (hm : m ≠ l) : Spares l s (s.sendOrder m k x y z) where
  leg := congrArg (PerLeg.get · l) (State.sendOrder_legs ..)
  queue := congrArg (PerLeg.get · l) (State.sendOrder_queues ..)
  port := State.sendOrder_port_ne k x y z hm
  seq := State.sendOrder_seq ..
  slots _ _ hr _ := (State.slot_sendOrder ..).trans hr

theorem withdrawLift (hm : m ≠ l) : Spares l s (s.withdrawLift m) where
  leg := (State.withdrawLift_others l hm.symm).1
  queue := (State.withdrawLift_others l hm.symm).2
  port := by
    unfold State.withdrawLift
    repeat' split
    · exact (State.sendOrder_port_ne _ _ _ _ hm).trans State.handBackTarget_port
    · exact State.sendOrder_port_ne _ _ _ _ hm
    · rfl
  seq := State.withdrawLift_seq
  slots i r hr hst := by
    refine State.slot_withdrawLift hr ?_ ?_
    · rcases hst with hst | hst | hst <;> simp [hst, hm.symm]
    · rcases hst with hst | hst | hst <;> simp [hst, hm.symm]

theorem braceStance (hm : m ≠ l) : Spares l s (s.braceStance m) := by
  unfold State.braceStance
  split
  · exact sendOrder .brace 0 0 0 hm
  · exact refl l s

theorem seek (hm : m ≠ l) : Spares l s (s.seek m) where
  leg := (State.seek_others l hm.symm).1
  queue := (State.seek_others l hm.symm).2
  port := State.seek_cases (P := fun t => t.port l = s.port l) rfl (fun _ _ _ _ _ _ => rfl)
    fun _ _ x y z _ _ _ => State.sendOrder_port_ne .place x y z hm
  seq := State.seek_seq
  slots i r hr hst := by
    refine (State.slot_seek hr ?_).1
    rcases hst with hst | hst | hst <;> simp [hst, hm.symm]

theorem ended (s : State) (n : NodeNumber) (d : Detail) :
    Spares l s (({ s with attn := { s.attn with tipHolds := false } } : State).pend n d) :=
  ⟨rfl, rfl, rfl, rfl, fun _ _ h _ => h⟩

/-- One operation for each leg, of which those for the others spare a leg, seen from its own. -/
theorem foldl_at {f : State → Leg → State} (hf : ∀ s m, m ≠ l → Spares l s (f s m)) (s : State) :
    ∃ u, Spares l s u ∧ Spares l (f u l) (Leg.all.foldl f s) := by
  cases l with
  | lf => exact ⟨s, refl _ s, ((hf _ .rf (by decide)).trans (hf _ .lh (by decide))).trans (hf _ .rh (by decide))⟩
  | rf => exact ⟨_, hf s .lf (by decide), (hf _ .lh (by decide)).trans (hf _ .rh (by decide))⟩
  | lh => exact ⟨_, (hf s .lf (by decide)).trans (hf _ .rf (by decide)), hf _ .rh (by decide)⟩
  | rh => exact ⟨_, ((hf s .lf (by decide)).trans (hf _ .rf (by decide))).trans (hf _ .lh (by decide)), refl _ _⟩

end Spares

/-! ### The entry, seen from one leg -/

theorem State.braceStance_leg : (s.braceStance l).leg m = s.leg m := by
  unfold State.braceStance
  split
  · exact congrArg (PerLeg.get · m) (State.sendOrder_legs ..)
  · rfl

theorem State.braceStance_queue : (s.braceStance l).queue m = s.queue m := by
  unfold State.braceStance
  split
  · exact congrArg (PerLeg.get · m) (State.sendOrder_queues ..)
  · rfl

theorem State.braceStance_slot : (s.braceStance l).slot i = s.slot i := by
  unfold State.braceStance
  split
  · exact State.slot_sendOrder ..
  · rfl

/-- The entry for a leg that does not seek: the others' withdrawals, its own, the others' BRACE, its own, and the rest. -/
theorem State.haltEntry_at (hg : s.seq.gait ≠ .halted) (ha : c.applies s.seq.gait = true)
    (hl : (s.leg l).phase ≠ .seeking) : ∃ u v, Spares l (s.haltNamed c) u ∧ Spares l (u.withdrawLift l) v
      ∧ Spares l (v.braceStance l) (s.haltEntry c) := by
  obtain ⟨u, hu, hw⟩ := Spares.foldl_at (l := l) (f := State.withdrawLift) (fun _ _ => .withdrawLift) (s.haltNamed c)
  obtain ⟨v, hv, hb⟩ := Spares.foldl_at (l := l) (f := State.braceStance) (fun _ _ => .braceStance)
    (Leg.all.foldl State.withdrawLift (s.haltNamed c))
  refine ⟨u, v, hu, hw.trans hv, ?_⟩
  have noted : Spares l (v.braceStance l) (s.haltNoted c) := by
    unfold State.haltNoted
    exact hb.trans (.ended _ _ _)
  have stays : (v.leg l).phase ≠ .seeking := by
    have leg : (u.leg l) = s.leg l := hu.leg
    rw [(hw.trans hv).leg]
    by_cases hp : (u.leg l).phase = .unloading
    · rw [State.withdrawLift_leg hp]
      simp
    · rwa [State.withdrawLift_of_ne hp, leg]
  rw [State.haltEntry_eq, if_neg (by simp [hg, ha])]
  split
  · obtain ⟨w, hw', hs⟩ := Spares.foldl_at (l := l) (f := State.seek) (fun _ _ => .seek) (s.haltNoted c)
    have idle : w.seek l = w := State.seek_of_not_seeking (by
      rwa [hw'.leg, noted.leg, State.braceStance_leg])
    rw [idle] at hs
    exact noted.trans (hw'.trans hs)
  · exact noted

/-! ### What the entry leaves -/

theorem State.haltNamed_eq (s : State) (c : HaltCause) : s.haltNamed c =
    { s with seq := { s.seq with
      gait := .halted
      haltReason := some c
      reasons := if s.seq.gait = .walking ∨ s.seq.gait = .holding then trimmed s.seq.reasons else s.seq.reasons } } := by
  unfold State.haltNamed
  by_cases hw : s.seq.gait = .walking ∨ s.seq.gait = .holding
  · rw [State.leaveTo_walking hw, if_pos hw]
    rfl
  · rw [State.leaveTo_other hw, if_neg hw]
    rfl

theorem State.haltNamed_stride (s : State) (c : HaltCause) : (s.haltNamed c).seq.stride = s.seq.stride := rfl

theorem State.braceStance_attn : (s.braceStance l).attn = s.attn := by
  unfold State.braceStance
  split
  · exact State.sendOrder_attn ..
  · rfl

theorem State.braceStance_seq : (s.braceStance l).seq = s.seq := by
  unfold State.braceStance
  split
  · exact State.sendOrder_seq ..
  · rfl

theorem foldl_all (f : State → Leg → State) (s : State) : Leg.all.foldl f s = f (f (f (f s .lf) .rf) .lh) .rh := rfl

theorem foldl_same {α β : Type} {f : State → α → State} {g : State → β} (hf : ∀ s a, g (f s a) = g s) (as : List α)
    (s : State) : g (as.foldl f s) = g s := by
  induction as generalizing s with
  | nil => rfl
  | cons a as ih => exact (ih (f s a)).trans (hf s a)

/-- The legs withdrawn and braced, before the tip condition ends (R127). -/
def State.haltBraced (s : State) (c : HaltCause) : State :=
  Leg.all.foldl State.braceStance (Leg.all.foldl State.withdrawLift (s.haltNamed c))

/-- The tip condition ended and the GAIT node pended (R127, R145). -/
def State.haltEnded (s : State) (c : HaltCause) : State :=
  ({ s with attn := { s.attn with tipHolds := false } } : State).pend nodeGait (.gaitHalted c)

theorem State.haltNoted_eq (s : State) (c : HaltCause) : s.haltNoted c = (s.haltBraced c).haltEnded c := by
  unfold State.haltNoted State.haltBraced State.haltEnded
  dsimp only

theorem State.haltEnded_seq (s : State) (c : HaltCause) : (s.haltEnded c).seq = s.seq := rfl

theorem State.haltEnded_tipHolds (s : State) (c : HaltCause) : (s.haltEnded c).attn.tipHolds = false := rfl

theorem State.haltEnded_node (s : State) (c : HaltCause) :
    (s.haltEnded c).node nodeGait = (s.node nodeGait).pend (.gaitHalted c) := State.node_setNode_self _ _ _

theorem State.haltBraced_attn (s : State) (c : HaltCause) : (s.haltBraced c).attn = s.attn :=
  (foldl_same (g := State.attn) (fun _ _ => State.braceStance_attn) _ _).trans
    (foldl_same (g := State.attn) (fun _ _ => State.withdrawLift_attn) _ _)

theorem State.haltBraced_seq (s : State) (c : HaltCause) : (s.haltBraced c).seq = (s.haltNamed c).seq :=
  (foldl_same (g := State.seq) (fun _ _ => State.braceStance_seq) _ _).trans
    (foldl_same (g := State.seq) (fun _ _ => State.withdrawLift_seq) _ _)

theorem State.haltEntry_of_applies (hg : s.seq.gait ≠ .halted) (ha : c.applies s.seq.gait = true) : s.haltEntry c =
    if s.seq.gait = .off then Leg.all.foldl State.seek (s.haltNoted c) else s.haltNoted c := by
  rw [State.haltEntry_eq]
  exact if_neg (by simp [hg, ha])

/-- What the take of every SEEKING leg leaves, the entry leaves as its own part has put it. -/
theorem State.haltEntry_same {β : Type} {g : State → β} (hseek : ∀ s l, g (State.seek s l) = g s)
    (hg : s.seq.gait ≠ .halted) (ha : c.applies s.seq.gait = true) : g (s.haltEntry c) = g (s.haltNoted c) := by
  rw [State.haltEntry_of_applies hg ha]
  split
  · exact foldl_same hseek _ _
  · rfl

theorem State.haltEntry_seq (hg : s.seq.gait ≠ .halted) (ha : c.applies s.seq.gait = true) :
    (s.haltEntry c).seq = { s.seq with
      gait := .halted
      haltReason := some c
      reasons := if s.seq.gait = .walking ∨ s.seq.gait = .holding then trimmed s.seq.reasons else s.seq.reasons } := by
  rw [State.haltEntry_same (g := State.seq) (fun _ _ => State.seek_seq) hg ha, State.haltNoted_eq, State.haltEnded_seq,
    State.haltBraced_seq, State.haltNamed_eq]

theorem State.haltEntry_tipHolds (hg : s.seq.gait ≠ .halted) (ha : c.applies s.seq.gait = true) :
    (s.haltEntry c).attn.tipHolds = false := by
  rw [State.haltEntry_same (g := fun s => s.attn.tipHolds) (fun _ _ => State.seek_attn.1) hg ha, State.haltNoted_eq]
  exact State.haltEnded_tipHolds _ c

theorem State.haltEntry_node (hg : s.seq.gait ≠ .halted) (ha : c.applies s.seq.gait = true) :
    ((s.haltEntry c).node nodeGait).pending =
      if (s.node nodeGait).pending = none then some (.gaitHalted c) else (s.node nodeGait).pending := by
  have braced : (s.haltBraced c).node nodeGait = s.node nodeGait :=
    congrArg (fun a : Attention => a.nodes[nodeGait]) (State.haltBraced_attn s c)
  rw [State.haltEntry_same (g := fun s => s.node nodeGait) (fun _ _ => State.seek_attn.2 _ (by decide)) hg ha,
    State.haltNoted_eq, State.haltEnded_node, braced, Node.pend_eq]
  cases (s.node nodeGait).pending <;> rfl

theorem State.haltEntry_unloading (hg : s.seq.gait ≠ .halted) (ha : c.applies s.seq.gait = true)
    (hp : (s.leg l).phase = .unloading) : (s.haltEntry c).leg l =
      { s.leg l with phase := .stance, target := none, bounce := 0, stepFlag := false, swingTimer := .stopped } := by
  obtain ⟨u, v, hu, hv, ht⟩ := State.haltEntry_at (l := l) hg ha (by simp [hp])
  have leg : u.leg l = s.leg l := hu.leg
  rw [ht.leg, State.braceStance_leg, hv.leg, State.withdrawLift_leg (by rw [leg, hp]), leg]

/-- A leg that stands is braced (R127). -/
theorem State.haltEntry_braces (hg : s.seq.gait ≠ .halted) (ha : c.applies s.seq.gait = true)
    (hp : (s.leg l).phase = .stance ∨ (s.leg l).phase = .unloading) (hl : (s.port l).linkUp = true) :
    ((s.haltEntry c).port l).lastKind = some .brace
      ∧ ∃ o, ((s.haltEntry c).port l).pending = some o ∧ o.kind = .brace := by
  obtain ⟨u, v, hu, hv, ht⟩ := State.haltEntry_at (l := l) hg ha (by rcases hp with hp | hp <;> simp [hp])
  have leg : u.leg l = s.leg l := hu.leg
  have port : u.port l = s.port l := hu.port
  have stands : (v.leg l).phase = .stance := by
    rw [hv.leg]
    by_cases hw : (u.leg l).phase = .unloading
    · rw [State.withdrawLift_leg hw]
    · rw [State.withdrawLift_of_ne hw, leg]
      exact hp.resolve_right (leg ▸ hw)
  have up : (v.port l).linkUp = true := by
    have calm : PortsCalm .plain u.ports (u.withdrawLift l).ports := (State.withdrawLift_calm l).ports
    have same : ((u.withdrawLift l).port l).linkUp = (u.port l).linkUp := (calm.same rfl l).linkUp
    rw [hv.port, same, port]
    exact hl
  rw [ht.port, State.braceStance, if_pos stands]
  exact (State.sendOrder_port_self .brace 0 0 0 up).2

theorem State.backToStance_slot : (s.backToStance l).slot i = s.slot i := State.slot_sendOrder ..

theorem State.backToStance_queue : (s.backToStance l).queue m = s.queue m :=
  congrArg (PerLeg.get · m) (State.sendOrder_queues ..)

/-- A withdrawn target's leg and record as the entry leaves them: as the hand-back does (R59). -/
theorem State.haltEntry_handsBack (hg : s.seq.gait ≠ .halted) (ha : c.applies s.seq.gait = true)
    (hp : (s.leg l).phase = .unloading) (ht : (s.leg l).target = some h) : ∃ u, Spares l (s.haltNamed c) u
      ∧ (s.haltEntry c).queue l = (u.handBackTarget l h).queue l
      ∧ ∀ i r, (u.handBackTarget l h).slot i = some r → r.state = .reserved l ∨ r.state = .candidate →
          (s.haltEntry c).slot i = some r := by
  obtain ⟨u, v, hu, hv, hb⟩ := State.haltEntry_at (l := l) hg ha (by simp [hp])
  have leg : u.leg l = s.leg l := hu.leg
  have back : u.withdrawLift l = (u.handBackTarget l h).backToStance l := by
    rw [State.withdrawLift, if_pos (by rw [leg, hp]), leg, ht]
  refine ⟨u, hu, ?_, fun i r hr hst => ?_⟩
  · rw [hb.queue, State.braceStance_queue, hv.queue, back, State.backToStance_queue]
  · have held : r.state = .reserved l ∨ r.state = .target l ∨ r.state = .candidate := hst.imp_right .inr
    refine hb.slots i r ?_ held
    rw [State.braceStance_slot]
    refine hv.slots i r ?_ held
    rw [back, State.backToStance_slot]
    exact hr

theorem State.haltEntry_handsBack_short (hg : s.seq.gait ≠ .halted) (ha : c.applies s.seq.gait = true)
    (hp : (s.leg l).phase = .unloading) (ht : (s.leg l).target = some h) (hr : s.slot h.index = some r)
    (hst : r.state = .target l) (hlen : (s.queue l).length < 3) :
    (s.haltEntry c).queue l = h :: s.queue l
      ∧ (s.haltEntry c).slot h.index = some { r with state := .reserved l, tag := s.seq.stride } := by
  obtain ⟨u, hu, queue, slots⟩ := State.haltEntry_handsBack (l := l) hg ha hp ht
  have seq : u.seq.stride = s.seq.stride := (congrArg Sequencer.stride hu.seq).trans (State.haltNamed_stride s c)
  have queue₀ : u.queue l = s.queue l := hu.queue
  have back := State.handBackTarget_short (hu.slots _ r hr (.inr (.inl hst))) hst (queue₀ ▸ hlen)
  rw [seq, queue₀] at back
  rw [back] at queue slots
  refine ⟨queue.trans (PerLeg.get_set_self _ _ _), slots _ _ (State.slot_setSlot_self _ _ _) (.inl rfl)⟩

/-- A full queue's last entry returns to CANDIDATE (R59). -/
theorem State.haltEntry_handsBack_full {a b d : Handle} {r' : FootRecord} (hg : s.seq.gait ≠ .halted)
    (ha : c.applies s.seq.gait = true) (hp : (s.leg l).phase = .unloading) (ht : (s.leg l).target = some h)
    (hr : s.slot h.index = some r) (hst : r.state = .target l) (hq : s.queue l = [a, b, d]) (hne : d.index ≠ h.index)
    (hr' : s.slot d.index = some r') (hst' : r'.state = .reserved l) :
    (s.haltEntry c).queue l = [h, a, b]
      ∧ (s.haltEntry c).slot h.index = some { r with state := .reserved l, tag := s.seq.stride }
      ∧ (s.haltEntry c).slot d.index = some { r' with state := .candidate, tag := s.seq.stride } := by
  obtain ⟨u, hu, queue, slots⟩ := State.haltEntry_handsBack (l := l) hg ha hp ht
  have seq : u.seq.stride = s.seq.stride := (congrArg Sequencer.stride hu.seq).trans (State.haltNamed_stride s c)
  have queue₀ : u.queue l = s.queue l := hu.queue
  have back := State.handBackTarget_full (hu.slots _ r hr (.inr (.inl hst))) hst (queue₀.trans hq) hne
    (hu.slots _ r' hr' (.inl hst')) hst'
  rw [seq] at back
  rw [back] at queue slots
  refine ⟨queue.trans (PerLeg.get_set_self _ _ _), slots _ _ ?_ (.inl rfl),
    slots _ _ (State.slot_setSlot_self _ _ _) (.inr rfl)⟩
  exact (State.slot_setSlot_ne _ _ hne).trans (State.slot_setSlot_self _ _ _)

/-- The causes that do not apply in OFF. -/
theorem HaltCause.applies_eq_false_iff {g : Gait} (hg : g ≠ .halted) :
    c.applies g = false ↔ g = .off ∧ (c = .tip ∨ c = .supportLost ∨ c = .legLost) := by
  cases c <;> cases g <;> simp_all [HaltCause.applies]

end Sys2Proof.Machine
end

section
namespace Sys2Proof.Proofs

open Machine Claims

theorem entryStopsTheRobot : EntryStopsTheRobot := by
  intro s c applies t
  have happ (hg : s.seq.gait ≠ .halted) : applies ↔ c.applies s.seq.gait = true := by
    rw [← Bool.not_eq_false, HaltCause.applies_eq_false_iff hg]
    cases c <;> simp [applies]
  refine ⟨fun h => ?_, fun hg ha => ?_, fun hg ha => ?_⟩
  · have none : s.seq.gait = .halted ∨ c.applies s.seq.gait = false := by
      by_cases hg : s.seq.gait = .halted
      · exact .inl hg
      · exact .inr (Bool.eq_false_iff.2 fun ha => h.resolve_left hg ((happ hg).2 ha))
    exact (State.haltEntry_eq s c).trans (if_pos none)
  · have ha := (happ hg).1 ha
    refine ⟨State.haltEntry_seq hg ha, State.haltEntry_tipHolds hg ha, State.haltEntry_node hg ha, fun l =>
      ⟨fun hu hs => ((State.haltEntry_tame c).legs l hu hs).1, State.haltEntry_unloading hg ha,
        State.haltEntry_braces hg ha⟩⟩
  · have ha := (happ hg).1 ha
    intro reasons named withdrawn brace braced noted
    have hnamed : named = s.haltNamed c := (State.haltNamed_eq s c).symm
    have hwithdrawn : withdrawn = Leg.all.foldl State.withdrawLift named := rfl
    have hbrace (l : Leg) (u : State) : brace l u = u.braceStance l := rfl
    have hbraced : braced = s.haltBraced c := by
      rw [State.haltBraced, ← hnamed, ← hwithdrawn, foldl_all]
      simp only [← hbrace]
      rfl
    have hnoted : noted = s.haltNoted c := by
      rw [State.haltNoted_eq, ← hbraced]
      rfl
    refine ⟨?_, fun l h r hp ht hr hst => ⟨State.haltEntry_handsBack_short hg ha hp ht hr hst, fun a b d r' hq hne hr' hst' =>
      State.haltEntry_handsBack_full hg ha hp ht hr hst hq hne hr' hst'⟩⟩
    have entry := State.haltEntry_of_applies hg ha
    rw [foldl_all] at entry
    rw [hnoted]
    exact entry

theorem causeIsTheEntryAndItsRecount : CauseIsTheEntryAndItsRecount := by
  refine ⟨fun _ _ => rfl, fun s t => ⟨fun h => if_neg fun ⟨hs, ht, hw⟩ => h ⟨hs, ht, State.withdrawalOverflows_iff.1 hw⟩,
    fun ⟨hs, ht, hw⟩ => if_pos ⟨hs, ht, State.withdrawalOverflows_iff.2 hw⟩⟩⟩

/-- Settles O37: the entry to HALTED, and the cause with its recount. -/
theorem haltEntryStopsTheRobot : Obligations.HaltEntryStopsTheRobot :=
  ⟨entryStopsTheRobot, causeIsTheEntryAndItsRecount⟩

end Sys2Proof.Proofs
end
